-- ==== Sys2Proof/Word.lean ====
section
/-! DEFINITION. Word.lean: the byte, the one unit the block stores and sends (spec/20_memory.md R50, R58). -/

namespace Sys2Proof

/-- A byte: a framebuffer byte, a byte of a transport write, an 8-bit register (10_state.md R23, R24, R27). -/
abbrev Byte := BitVec 8

end Sys2Proof
end

