-- ==== Sys2Proof/Syntax.lean ====
section
/-! DEFINITION. Syntax.lean: the instructions, one constructor per row of spec/opcode_table.json, their operand types, and
the bytes in which the opcode table's words give one (spec/30_encoding.md R70, R71, R76, R77), and the producer of pixel events a
host's program can hold (spec/42_graphics_surface.md R154). -/

namespace Sys2Proof

/-- The size catalog's codes; the catalog has exactly one entry (10_state.md R21, D31). -/
inductive SizeCode where
  | size128x64
deriving DecidableEq, Repr

/-- The four rotations (10_state.md R22). -/
inductive Rotation where
  | deg0 | deg90 | deg180 | deg270
deriving DecidableEq, Repr

/-- The configuration value the host builds before CONNECT: the spec's `Config` (43_configuration.md R190). -/
structure PanelConfig where
  size : SizeCode
  rot  : Rotation
deriving DecidableEq, Repr

/-- RESET's pin operand: the host's own reset pin, whose answers are draws, or the no-op pin, which always succeeds
(60_exceptions.md R213, D40; log 19). -/
inductive PinSel where
  | wired | noOp
deriving DecidableEq, Repr

/-- The instructions. The first fourteen are the controller commands, the block's output encoding (30_encoding.md R71):
running one is one call of its encoder function (40_command_encoder.md R100; log 4). The other nineteen are the host
operations (30_encoding.md R77). -/
inductive Instr where
  /-- 0xD5 v (R101). -/
  | clockDiv (v : Byte)
  /-- 0x81 v (R102). -/
  | contrast (v : Byte)
  /-- 0xD9 v (R103). -/
  | precharge (v : Byte)
  /-- 0x2F (R104). -/
  | scrollOn
  /-- 0x2E (R104). -/
  | scrollOff
  /-- 0xAF, the controller command of the table's first DISPLAY_ON row (R105). -/
  | cmdDisplayOn
  /-- 0xAE (R105). -/
  | cmdDisplayOff
  /-- 0xA1 (R106). -/
  | segRemap1
  /-- 0xA0 (R106). -/
  | segRemap0
  /-- 0xC8 (R107). -/
  | comReverse
  /-- 0xC0 (R107). -/
  | comNormal
  /-- 0xB0 + p; the operand is a non-negative integer of which 0 to 7 are legal (R108). -/
  | pageStart (p : Nat)
  /-- 0x00 + n (R109). -/
  | colLow (n : BitVec 4)
  /-- 0x10 + n (R110). -/
  | colHigh (n : BitVec 4)
  /-- Host operation 0x01 (R193). Its transport operand is the session's transport (log 6). -/
  | connect (cfg : PanelConfig)
  /-- Host operation 0x02 (R191). -/
  | withSize (cfg : PanelConfig) (size : SizeCode)
  /-- Host operation 0x03 (R192). -/
  | withRotation (cfg : PanelConfig) (rot : Rotation)
  /-- Host operation 0x10 (R156). Its delay operand carries no choice: a delay always returns (R213; log 19). -/
  | reset (pin : PinSel)
  /-- Host operation 0x11 (R157). -/
  | init
  /-- Host operation 0x12, INITIALIZE, the RAW mode form (R122). -/
  | initRaw
  /-- Host operation 0x20 (R150). -/
  | clear
  /-- Host operation 0x21 (R151). -/
  | setPixel (x y : BitVec 32) (value : Byte)
  /-- Host operation 0x22 (R153): x and y are signed two's complement. -/
  | pixelEvent (x y : BitVec 32) (color : Bool)
  /-- Host operation 0x23 (R155). -/
  | flush
  /-- Host operation 0x30 (R123). -/
  | setDrawArea (startCol startRow endCol endRow : Byte)
  /-- Host operation 0x31 (R124). -/
  | draw (bytes : List Byte)
  /-- Host operation 0x40 (R129). -/
  | setRotation (rot : Rotation)
  /-- Host operation 0x41 (R130). -/
  | getDimensions
  /-- Host operation 0x42, the table's second DISPLAY_ON row (R131). -/
  | displayOn (on : Bool)
  /-- Host operation 0x43 (R132). -/
  | setContrast (v : Byte)
  /-- Host operation 0x50 (R160). -/
  | release
  /-- Host operation 0x51 (R161). -/
  | enterGraphics
  /-- Host operation 0x52 (R162). -/
  | unwrap
deriving DecidableEq, Repr

/-- The two code spaces of the opcode table: one byte value can name a host operation and a controller command
(30_encoding.md R74, R77), so coded bytes say which space they are of (log 3). -/
inductive Space where
  | hostOperation | controllerCommand
deriving DecidableEq, Repr

/-- An instruction as bytes: a controller command's are the spec's (30_encoding.md R70). The spec gives a host operation none: it
is a value, and no program and no state holds these bytes (R76). The layout of its operands, DESIGN CHOICE, only lets an opcode
table word be read and an instruction be written (log 2). -/
structure CodeBytes where
  space : Space
  bytes : List Byte
deriving DecidableEq, Repr

/-- A pixel event: a position and on or off (42_graphics_surface.md R153). -/
abbrev PixelEvent := BitVec 32 × BitVec 32 × Bool

/-- A producer of pixel events, the lazy sequence of R154: the events of the queue, then those of the cycle over and over.
With an empty cycle the sequence ends; with any other it never does (log 24). -/
structure PixelSource where
  queue : List PixelEvent
  cycle : List PixelEvent
deriving DecidableEq, Repr

/-- The names of the host operations (30_encoding.md R77). -/
inductive HostOp where
  | connect | withSize | withRotation | reset | init | initRaw | clear | setPixel | pixelEvent | flush
  | setDrawArea | draw | setRotation | getDimensions | displayOn | setContrast | release | enterGraphics | unwrap
deriving DecidableEq, Repr

/-- The names of the controller commands (30_encoding.md R71). -/
inductive Command where
  | clockDiv | contrast | precharge | scrollOn | scrollOff | displayOn | displayOff | segRemap1 | segRemap0
  | comReverse | comNormal | pageStart | colLow | colHigh
deriving DecidableEq, Repr

end Sys2Proof
end

