-- ==== Sys2Proof/Machine/Catalog.lean ====
section
/-! DEFINITION. Machine/Catalog.lean: the size catalog (spec/10_state.md R21) and the block's fixed parameters
(spec/00_scope.md R6). -/

namespace Sys2Proof

/-- `W`: the unrotated panel width in pixels (R6, R21). -/
def SizeCode.width : SizeCode → Nat
  | .size128x64 => 128

/-- `H`: the unrotated panel height in pixels (R6, R21). -/
def SizeCode.height : SizeCode → Nat
  | .size128x64 => 64

/-- `COL_OFF`: the column offset of the visible area (R6, R21, D37). -/
def SizeCode.colOff : SizeCode → Nat
  | .size128x64 => 0

/-- `FB_BYTES`: the framebuffer's length in bytes, W times H over 8 (R6, R27). -/
def SizeCode.fbBytes (s : SizeCode) : Nat := s.width * s.height / 8

/-- `PAGE_H`: pixel rows in a controller page (R6). -/
def pageHeight : Nat := 8

/-- `PAGE_MAX`: the largest page the encoder sends (R6, 40_command_encoder.md R108). -/
def lastPage : Nat := 7

/-- `RESET_DELAY_MS`: each wait of the reset pulse, in milliseconds (R6). -/
def resetDelayMs : Nat := 10

/-- The default configuration (43_configuration.md R190). -/
def PanelConfig.default : PanelConfig := ⟨.size128x64, .deg0⟩

end Sys2Proof
end

