-- ==== Sys2Proof/WellFormed.lean ====
section
/-! DEFINITION. WellFormed.lean: which instructions the encodings of spec/30_encoding.md can express. Every operand but
PAGE_START's has exactly its encoding's width in its type. -/

namespace Sys2Proof

/-- An instruction the encodings can express: a PAGE_START operand is at most PAGE_MAX (R71, R108). -/
def Instr.wf : Instr → Bool
  | .pageStart p => decide (p ≤ lastPage)
  | .clockDiv _ | .contrast _ | .precharge _ => true
  | .scrollOn | .scrollOff | .cmdDisplayOn | .cmdDisplayOff => true
  | .segRemap1 | .segRemap0 | .comReverse | .comNormal => true
  | .colLow _ | .colHigh _ => true
  | .connect _ | .withSize _ _ | .withRotation _ _ => true
  | .reset _ | .init | .initRaw => true
  | .clear | .setPixel _ _ _ | .pixelEvent _ _ _ | .flush => true
  | .setDrawArea _ _ _ _ | .draw _ => true
  | .setRotation _ | .getDimensions | .displayOn _ | .setContrast _ => true
  | .release | .enterGraphics | .unwrap => true

end Sys2Proof
end

