-- ==== Sys2Proof/Decode.lean ====
section
/-! DEFINITION. Decode.lean: from bytes to an instruction or a named rejection, and back (spec/30_encoding.md). The first half
reads and writes controller commands (R70 to R75), the second half host operations (R76 to R78), whose operand layout
is the model's: a program holds operations as values, and these bytes only carry the opcode table's words (log 2). -/

namespace Sys2Proof

/-- Why bytes are no instruction. -/
inductive DecodeError where
  /-- No bytes at all. -/
  | noBytes
  /-- A host operation code that R77 does not list (R78). -/
  | unknownOp (code : Byte)
  /-- A listed host operation whose operand bytes do not have its layout (log 2, log 21). -/
  | malformedOperands (code : Byte)
  /-- A first byte outside the closed command set of R74 (R75). -/
  | notACommand (b : Byte)
  /-- A two-byte command without its operand byte (R73). -/
  | truncatedCommand (b : Byte)
  /-- Bytes left over after the one command a write holds (R70). -/
  | trailingBytes
deriving DecidableEq, Repr

/-! ## Controller commands -/

/-- Every controller command, in the table's order. -/
def Command.all : List Command :=
  [.clockDiv, .contrast, .precharge, .scrollOn, .scrollOff, .displayOn, .displayOff, .segRemap1, .segRemap0,
   .comReverse, .comNormal, .pageStart, .colLow, .colHigh]

/-- The fixed bits of a command's first byte: the table's `match` (R71). -/
def Command.pattern : Command → Byte
  | .clockDiv   => 0xD5
  | .contrast   => 0x81
  | .precharge  => 0xD9
  | .scrollOn   => 0x2F
  | .scrollOff  => 0x2E
  | .displayOn  => 0xAF
  | .displayOff => 0xAE
  | .segRemap1  => 0xA1
  | .segRemap0  => 0xA0
  | .comReverse => 0xC8
  | .comNormal  => 0xC0
  | .pageStart  => 0xB0
  | .colLow     => 0x00
  | .colHigh    => 0x10

/-- Which bits of the first byte are fixed: the table's `mask` (R70, R71). -/
def Command.mask : Command → Byte
  | .pageStart => 0xF8
  | .colLow | .colHigh => 0xF0
  | .clockDiv | .contrast | .precharge | .scrollOn | .scrollOff | .displayOn | .displayOff | .segRemap1 | .segRemap0
  | .comReverse | .comNormal => 0xFF

/-- The number of bytes of a command: format CMD2 has two, CMD1 and CMD1F one (R70, R73). -/
def Command.length : Command → Nat
  | .clockDiv | .contrast | .precharge => 2
  | .scrollOn | .scrollOff | .displayOn | .displayOff | .segRemap1 | .segRemap0
  | .comReverse | .comNormal | .pageStart | .colLow | .colHigh => 1

/-- Whether a command's row of the table matches a first byte. -/
def Command.covers (c : Command) (b : Byte) : Bool := b &&& c.mask == c.pattern

/-- The command a first byte names, if any: the opcode map of R74. -/
def commandOf (b : Byte) : Option Command := Command.all.find? (·.covers b)

/-- The instruction of a command with first byte `b` and, for a two-byte command, operand byte `v` (R71). -/
def Command.instr (c : Command) (b v : Byte) : Instr :=
  match c with
  | .clockDiv   => .clockDiv v
  | .contrast   => .contrast v
  | .precharge  => .precharge v
  | .scrollOn   => .scrollOn
  | .scrollOff  => .scrollOff
  | .displayOn  => .cmdDisplayOn
  | .displayOff => .cmdDisplayOff
  | .segRemap1  => .segRemap1
  | .segRemap0  => .segRemap0
  | .comReverse => .comReverse
  | .comNormal  => .comNormal
  | .pageStart  => .pageStart (b.extractLsb' 0 3).toNat
  | .colLow     => .colLow (b.extractLsb' 0 4)
  | .colHigh    => .colHigh (b.extractLsb' 0 4)

/-- One command off the front of a byte stream, with the bytes after it: the first byte alone tells the length (R73). -/
def decodeFirst : List Byte → Except DecodeError (Instr × List Byte)
  | [] => .error .noBytes
  | b :: rest =>
    match commandOf b with
    | none => .error (.notACommand b)
    | some c =>
      if c.length = 2 then
        match rest with
        | [] => .error (.truncatedCommand b)
        | v :: rest' => .ok (c.instr b v, rest')
      else .ok (c.instr b 0, rest)

/-- One command-channel write, which holds exactly one command (R70). -/
def decodeCommand (bytes : List Byte) : Except DecodeError Instr :=
  match decodeFirst bytes with
  | .error e => .error e
  | .ok (i, []) => .ok i
  | .ok (_, _ :: _) => .error .trailingBytes

/-- Puts an instruction in front of a decoded stream. -/
def consInstr (i : Instr) : Except DecodeError (List Instr) → Except DecodeError (List Instr)
  | .error e => .error e
  | .ok is => .ok (i :: is)

/-- A command stream without write boundaries, split by the lengths the first bytes give (R73). -/
def decodeStream : List Byte → Except DecodeError (List Instr)
  | [] => .ok []
  | [b] =>
    match commandOf b with
    | none => .error (.notACommand b)
    | some c => if c.length = 2 then .error (.truncatedCommand b) else .ok [c.instr b 0]
  | b :: v :: rest =>
    match commandOf b with
    | none => .error (.notACommand b)
    | some c =>
      if c.length = 2 then consInstr (c.instr b v) (decodeStream rest)
      else consInstr (c.instr b 0) (decodeStream (v :: rest))

/-! ## Host operations -/

/-- Every host operation, in the table's order. -/
def HostOp.all : List HostOp :=
  [.connect, .withSize, .withRotation, .reset, .init, .initRaw, .clear, .setPixel, .pixelEvent, .flush,
   .setDrawArea, .draw, .setRotation, .getDimensions, .displayOn, .setContrast, .release, .enterGraphics, .unwrap]

/-- The operation codes (R77). -/
def HostOp.code : HostOp → Byte
  | .connect       => 0x01
  | .withSize      => 0x02
  | .withRotation  => 0x03
  | .reset         => 0x10
  | .init          => 0x11
  | .initRaw       => 0x12
  | .clear         => 0x20
  | .setPixel      => 0x21
  | .pixelEvent    => 0x22
  | .flush         => 0x23
  | .setDrawArea   => 0x30
  | .draw          => 0x31
  | .setRotation   => 0x40
  | .getDimensions => 0x41
  | .displayOn     => 0x42
  | .setContrast   => 0x43
  | .release       => 0x50
  | .enterGraphics => 0x51
  | .unwrap        => 0x52

/-- The host operation a code names, if any (R77, R78). -/
def hostOpOf (code : Byte) : Option HostOp := HostOp.all.find? (·.code == code)

/-- The size catalog's code of a size (10_state.md R21). -/
def SizeCode.code : SizeCode → Byte
  | .size128x64 => 0

/-- The size a code names: only code 0 exists (R21, R191). -/
def sizeOf? (b : Byte) : Option SizeCode := if b = 0 then some .size128x64 else none

/-- The 2-bit code of a rotation (10_state.md R22). -/
def Rotation.code : Rotation → Byte
  | .deg0   => 0
  | .deg90  => 1
  | .deg180 => 2
  | .deg270 => 3

/-- The rotation a 2-bit code names; a byte above 3 is no 2-bit code. -/
def rotationOf? (b : Byte) : Option Rotation :=
  if b = 0 then some .deg0 else if b = 1 then some .deg90 else if b = 2 then some .deg180
  else if b = 3 then some .deg270 else none

/-- The byte of a 1-bit operand (log 2). -/
def boolByte (b : Bool) : Byte := if b then 1 else 0

/-- The 1-bit operand a byte holds. -/
def boolOf? (b : Byte) : Option Bool := if b = 0 then some false else if b = 1 then some true else none

/-- The byte of a pin operand: 0 the host's own pin, 1 the no-op pin (log 2, log 19). -/
def PinSel.code : PinSel → Byte
  | .wired => 0
  | .noOp  => 1

/-- The pin a byte names. -/
def pinOf? (b : Byte) : Option PinSel := if b = 0 then some .wired else if b = 1 then some .noOp else none

/-- The four bytes of a 32-bit operand, least significant first (log 2). -/
def bytes32 (v : BitVec 32) : List Byte :=
  [v.extractLsb' 0 8, v.extractLsb' 8 8, v.extractLsb' 16 8, v.extractLsb' 24 8]

/-- The 32-bit operand of four bytes, least significant first. -/
def word32 (b0 b1 b2 b3 : Byte) : BitVec 32 := b3 ++ b2 ++ b1 ++ b0

/-- A configuration operand: its size code, then its rotation code (log 2). -/
def configOf? (s r : Byte) : Option PanelConfig :=
  match sizeOf? s, rotationOf? r with
  | some size, some rot => some ⟨size, rot⟩
  | _, _ => none

/-- Operations without operands have no operand bytes. -/
def noOperands (i : Instr) : List Byte → Option Instr
  | [] => some i
  | _ :: _ => none

/-- The instruction of an operation and its operand bytes, none where the bytes do not have the operation's layout. -/
def decodeOperands (op : HostOp) (ops : List Byte) : Option Instr :=
  match op with
  | .connect => match ops with
    | [s, r] => (configOf? s r).map .connect
    | _ => none
  | .withSize => match ops with
    | [s, r, n] => match configOf? s r, sizeOf? n with
      | some cfg, some size => some (.withSize cfg size)
      | _, _ => none
    | _ => none
  | .withRotation => match ops with
    | [s, r, n] => match configOf? s r, rotationOf? n with
      | some cfg, some rot => some (.withRotation cfg rot)
      | _, _ => none
    | _ => none
  | .reset => match ops with
    | [p] => (pinOf? p).map .reset
    | _ => none
  | .init => noOperands .init ops
  | .initRaw => noOperands .initRaw ops
  | .clear => noOperands .clear ops
  | .setPixel => match ops with
    | [x0, x1, x2, x3, y0, y1, y2, y3, v] => some (.setPixel (word32 x0 x1 x2 x3) (word32 y0 y1 y2 y3) v)
    | _ => none
  | .pixelEvent => match ops with
    | [x0, x1, x2, x3, y0, y1, y2, y3, c] =>
      (boolOf? c).map (.pixelEvent (word32 x0 x1 x2 x3) (word32 y0 y1 y2 y3))
    | _ => none
  | .flush => noOperands .flush ops
  | .setDrawArea => match ops with
    | [sc, sr, ec, er] => some (.setDrawArea sc sr ec er)
    | _ => none
  | .draw => some (.draw ops)
  | .setRotation => match ops with
    | [r] => (rotationOf? r).map .setRotation
    | _ => none
  | .getDimensions => noOperands .getDimensions ops
  | .displayOn => match ops with
    | [b] => (boolOf? b).map .displayOn
    | _ => none
  | .setContrast => match ops with
    | [v] => some (.setContrast v)
    | _ => none
  | .release => noOperands .release ops
  | .enterGraphics => noOperands .enterGraphics ops
  | .unwrap => noOperands .unwrap ops

/-- A host operation: its code (R77), then its operands in the model's layout (log 2). -/
def decodeHost : List Byte → Except DecodeError Instr
  | [] => .error .noBytes
  | code :: ops =>
    match hostOpOf code with
    | none => .error (.unknownOp code)
    | some op =>
      match decodeOperands op ops with
      | none => .error (.malformedOperands code)
      | some i => .ok i

/-- The decoder: total on any bytes of either space. -/
def decode (c : CodeBytes) : Except DecodeError Instr :=
  match c.space with
  | .hostOperation => decodeHost c.bytes
  | .controllerCommand => decodeCommand c.bytes

/-! ## The encoder -/

/-- The bytes of a controller command. -/
def commandBytes (bytes : List Byte) : CodeBytes := ⟨.controllerCommand, bytes⟩

/-- The bytes of a host operation: its code, then its operand bytes. -/
def hostBytes (op : HostOp) (ops : List Byte) : CodeBytes := ⟨.hostOperation, op.code :: ops⟩

/-- The bytes of an instruction: for a controller command, those of R71; for a host operation, its code (R77) and its
operands in the model's layout (log 2). -/
def encode : Instr → CodeBytes
  | .clockDiv v    => commandBytes [0xD5, v]
  | .contrast v    => commandBytes [0x81, v]
  | .precharge v   => commandBytes [0xD9, v]
  | .scrollOn      => commandBytes [0x2F]
  | .scrollOff     => commandBytes [0x2E]
  | .cmdDisplayOn  => commandBytes [0xAF]
  | .cmdDisplayOff => commandBytes [0xAE]
  | .segRemap1     => commandBytes [0xA1]
  | .segRemap0     => commandBytes [0xA0]
  | .comReverse    => commandBytes [0xC8]
  | .comNormal     => commandBytes [0xC0]
  | .pageStart p   => commandBytes [0xB0 + BitVec.ofNat 8 p]
  | .colLow n      => commandBytes [0x00 + n.setWidth 8]
  | .colHigh n     => commandBytes [0x10 + n.setWidth 8]
  | .connect cfg   => hostBytes .connect [cfg.size.code, cfg.rot.code]
  | .withSize cfg size => hostBytes .withSize [cfg.size.code, cfg.rot.code, size.code]
  | .withRotation cfg rot => hostBytes .withRotation [cfg.size.code, cfg.rot.code, rot.code]
  | .reset pin     => hostBytes .reset [pin.code]
  | .init          => hostBytes .init []
  | .initRaw       => hostBytes .initRaw []
  | .clear         => hostBytes .clear []
  | .setPixel x y v => hostBytes .setPixel (bytes32 x ++ bytes32 y ++ [v])
  | .pixelEvent x y c => hostBytes .pixelEvent (bytes32 x ++ bytes32 y ++ [boolByte c])
  | .flush         => hostBytes .flush []
  | .setDrawArea sc sr ec er => hostBytes .setDrawArea [sc, sr, ec, er]
  | .draw bytes    => hostBytes .draw bytes
  | .setRotation rot => hostBytes .setRotation [rot.code]
  | .getDimensions => hostBytes .getDimensions []
  | .displayOn on  => hostBytes .displayOn [boolByte on]
  | .setContrast v => hostBytes .setContrast [v]
  | .release       => hostBytes .release []
  | .enterGraphics => hostBytes .enterGraphics []
  | .unwrap        => hostBytes .unwrap []

/-- Whether an instruction is a controller command rather than a host operation. -/
def Instr.isCommand (i : Instr) : Bool := decide ((encode i).space = .controllerCommand)

/-- A command stream without write boundaries: the commands' bytes one after another (R73). -/
def encodeStream (is : List Instr) : List Byte := is.flatMap fun i => (encode i).bytes

/-! ## The opcode table's words -/

/-- How many operand bytes follow an operation's code; DRAW's list may have any length, none when no more is given. -/
def HostOp.operandBytes : HostOp → Nat
  | .connect => 2
  | .withSize | .withRotation => 3
  | .reset | .setRotation | .displayOn | .setContrast => 1
  | .setPixel | .pixelEvent => 9
  | .setDrawArea => 4
  | .init | .initRaw | .clear | .flush | .draw | .getDimensions | .release | .enterGraphics | .unwrap => 0

/-- Byte k of an instruction whose bits are w: the first byte holds bits 7 to 0, and bits above nbits are zero. -/
def tableByte (nbits w k : Nat) : Byte := BitVec.ofNat 8 ((w % 2 ^ nbits) / 2 ^ (8 * k))

/-- The bytes of a table word and their space. DESIGN CHOICE: a bare word names no space (log 3). A first byte that is a listed
host operation code makes a host operation, also where it begins a command too; else one that begins a command makes a
controller command; a byte of neither space makes a host operation code of that byte alone, which R78 refuses with UnknownOp. -/
def bytesOfWord (nbits w : Nat) : CodeBytes :=
  let b := tableByte nbits w 0
  match hostOpOf b with
  | some op => hostBytes op ((List.range (max op.operandBytes (nbits / 8 - 1))).map fun k => tableByte nbits w (k + 1))
  | none =>
    match commandOf b with
    | some c => commandBytes ((List.range (max c.length (nbits / 8))).map fun k => tableByte nbits w k)
    | none => ⟨.hostOperation, [b]⟩

/-- The instruction the decoder reads from an opcode table word. -/
def decodeTableWord (nbits w : Nat) : Option Instr := (decode (bytesOfWord nbits w)).toOption

end Sys2Proof
end

