-- ==== Sys2Proof/Config.lean ====
section
/-! DEFINITION. Config.lean: what the spec leaves OPEN (spec/00_scope.md R6) and the free values it calls unspecified
(spec/93_implementation_defined.md U11 to U13). Every constant here is opaque: nothing in Lean can evaluate it or prove a
value of it, so whatever is proved holds for every value. -/

namespace Sys2Proof

/-- `INIT_CLOCK_DIV`: the operand byte of the clock-divider command INITIALIZE sends. OPEN (R6, D16; log 10). -/
opaque Config.initClockDiv : Byte

/-- `INIT_CONTRAST`: the operand byte of the contrast command INITIALIZE sends. OPEN (R6, D16; log 10). -/
opaque Config.initContrast : Byte

/-- `INIT_PRECHARGE`: the operand byte of the pre-charge command INITIALIZE sends. OPEN (R6, D16; log 10). -/
opaque Config.initPrecharge : Byte

/-- Which numbers are errors of the transport: the OPEN type `TransportErr` is the numbers this admits, and 0 (R6, U7; log 8). -/
opaque Config.isTransportErr : Nat → Bool

/-- Which numbers are errors of the reset pin: the OPEN type `PinErr` is the numbers this admits, and 0 (R6, U7; log 8). -/
opaque Config.isPinErr : Nat → Bool

/-- The n-th unspecified byte: the window and cursor registers at CONNECT and every framebuffer byte at CONNECT and at
ENTER_GRAPHICS are such bytes, each drawn under a number of its own (10_state.md R23, R24, R27; log 9). -/
opaque Config.freeByte : Nat → Byte

end Sys2Proof
end

