-- ==== Sys2Proof/Machine/Memory.lean ====
section
/-! DEFINITION. Machine/Memory.lean: the framebuffer as a list of (index, byte) cells (spec/10_state.md R27,
spec/20_memory.md R50 to R55). The canonical form: indices strictly rising. An index that is not listed does not exist: it
reads as no value, and an access to it stops the machine (log 12). So CONNECT and ENTER_GRAPHICS list all of the framebuffer's
indices, each with a free value, and where there is no framebuffer nothing is listed. -/

namespace Sys2Proof.Machine

/-- A memory: the cells that exist. -/
abbrev Memory := List Host.Cell

/-- What an index that is not listed reads as: no value (log 12). -/
def Memory.unlisted : Option Byte := none

/-- The byte at an index (R55). -/
def Memory.read : Memory → Nat → Option Byte
  | [], _ => Memory.unlisted
  | (a, v) :: rest, i => if i = a then some v else Memory.read rest i

/-- The memory after a byte is written at an index (R55), in canonical form again. -/
def Memory.write : Memory → Nat → Byte → Memory
  | [], i, v => [(i, v)]
  | (a, u) :: rest, i, v =>
    if i < a then (i, v) :: (a, u) :: rest
    else if i = a then (a, v) :: rest
    else (a, u) :: Memory.write rest i v

/-- The canonical form: indices strictly rising. -/
def Memory.wf : Memory → Bool
  | [] => true
  | [_] => true
  | (a, _) :: (b, v) :: rest => decide (a < b) && Memory.wf ((b, v) :: rest)

/-- The n cells from index i on, cell j holding f j. -/
def Memory.fillFrom (f : Nat → Byte) : Nat → Nat → Memory
  | _, 0 => []
  | i, n + 1 => (i, f i) :: Memory.fillFrom f (i + 1) n

/-- The memory of n bytes whose byte i is f i. -/
def Memory.fill (n : Nat) (f : Nat → Byte) : Memory := Memory.fillFrom f 0 n

/-- The n bytes from index i on, in ascending order: FB[i .. i+n-1]; none when one of them does not exist. -/
def Memory.readSeq : Memory → Nat → Nat → Option (List Byte)
  | _, _, 0 => some []
  | [], _, _ + 1 => none
  | (a, v) :: rest, i, n + 1 =>
    if a = i then (Memory.readSeq rest (i + 1) n).map (v :: ·)
    else if a < i then Memory.readSeq rest i (n + 1)
    else none

/-- A memory with exactly the indices 0 to n-1. -/
def Memory.covers (m : Memory) (n : Nat) : Prop := m.map Prod.fst = List.range n

/-- The framebuffer CONNECT and ENTER_GRAPHICS make: every byte an independent free value, drawn from number n on
(43_configuration.md R193, 42_graphics_surface.md R161, D13; log 9). -/
def freshFramebuffer (size : SizeCode) (n : Nat) : Memory :=
  Memory.fill size.fbBytes fun i => Config.freeByte (n + i)

/-- The cleared framebuffer: 0x00 at every index (42_graphics_surface.md R150). -/
def clearedFramebuffer (size : SizeCode) : Memory := Memory.fill size.fbBytes fun _ => 0x00

end Sys2Proof.Machine
end

