-- ==== Sys2Proof/Machine/State.lean ====
section
/-! DEFINITION. Machine/State.lean: everything the spec gives the machine (spec/10_state.md), the agents around it
(spec/60_exceptions.md R213), and the reasons a step can stop. -/

namespace Sys2Proof.Machine

/-- The session mode (10_state.md R28). -/
inductive Mode where
  /-- No session: before the first CONNECT and after UNWRAP. -/
  | none
  /-- The Graphics Surface: the block with its framebuffer. -/
  | graphics
  /-- Display Properties without a framebuffer. -/
  | raw
deriving DecidableEq, Repr

/-- The lifecycle tag, ghost state (10_state.md R29). -/
inductive Phase where
  | unreset | resetNotInit | ready
deriving DecidableEq, Repr

/-- An error value of the transport: the OPEN type `TransportErr` (00_scope.md R6). Which numbers belong to it is a constant of
Config without a body, so nothing proves how many values there are beside 0, and nothing looks at the number (log 8). -/
structure TransportErr where
  value : Nat
  known : (value == 0 || Config.isTransportErr value) = true
deriving DecidableEq, Repr

/-- An error value of the reset pin: the OPEN type `PinErr` (00_scope.md R6), open in the same way (log 8). -/
structure PinErr where
  value : Nat
  known : (value == 0 || Config.isPinErr value) = true
deriving DecidableEq, Repr

/-- An answer an agent gave: `Ok` or `Err(e)` (60_exceptions.md R213). -/
inductive Reply (ε : Type) where
  | ok
  | err (e : ε)
deriving DecidableEq, Repr

/-- What an agent will do when asked: answer, or never answer (70_reset_and_hazards.md R242; log 7). -/
inductive Answer (ε : Type) where
  | reply (r : Reply ε)
  | never
deriving DecidableEq, Repr

/-- An agent as the answers it will give: those of the queue in turn, then the last one for ever. Every finite sequence of
answers is such a script, so a statement about every state holds for every draw (R213, U14; log 6). -/
structure Agent (ε : Type) where
  queue : List (Answer ε)
  rest  : Answer ε
deriving DecidableEq, Repr

/-- A reset-pin level (00_scope.md R8). -/
inductive Level where
  | high | low
deriving DecidableEq, Repr

/-- One event of `LOG` with the answer it got (10_state.md R31). A wait has no answer to record: it cannot fail (R213). -/
inductive Event where
  | cmd (bytes : List Byte) (answer : Reply TransportErr)
  | data (bytes : List Byte) (answer : Reply TransportErr)
  | pin (level : Level) (answer : Reply PinErr)
  | wait (ms : Nat)
deriving DecidableEq, Repr

/-- Why `FAULT` is set (60_exceptions.md R204). -/
inductive FaultReason where
  | pageOutOfRange (page : Nat)
  | illegalWindow (startCol startRow endCol endRow : Byte)
  | windowUnset
deriving DecidableEq, Repr

/-- Why `REFUSED` is set (60_exceptions.md R205), with the value R201 records. -/
inductive RefusalReason where
  | modeRefused (op : Byte) (mode : Mode)
  | unknownOp (code : Byte)
deriving DecidableEq, Repr

/-- An error an operation returns (60_exceptions.md R202, R203). -/
inductive OpError where
  | transport (e : TransportErr)
  | pin (e : PinErr)
deriving DecidableEq, Repr

/-- The value of an `Ok` result (30_encoding.md R77). -/
inductive OpValue where
  | unit
  | dimensions (w h : Byte)
  | config (cfg : PanelConfig)
  | transport
deriving DecidableEq, Repr

/-- What an operation returns to the host: `Ok(v)` or `Err(e)` (60_exceptions.md R200). -/
inductive Result where
  | ok (v : OpValue)
  | err (e : OpError)
deriving DecidableEq, Repr

/-- A host operation code that R77 does not list (30_encoding.md R78). -/
structure UnassignedCode where
  code       : Byte
  unassigned : hostOpOf code = none
deriving DecidableEq, Repr

/-- One entry of the host's program: a value, not bytes (30_encoding.md R76). -/
inductive Entry where
  /-- A host operation, one constructor of `Instr` per code with its operands (R76, R77), or a controller command (log 4). -/
  | operation (i : Instr)
  /-- An operation code that no operation has (R78). -/
  | unassigned (c : UnassignedCode)
  /-- The host drops the surface without UNWRAP (42_graphics_surface.md R162; log 22). -/
  | dropSurface
  /-- The host hands the surface a lazy sequence of pixel events (R154, 30_encoding.md R80; log 24). -/
  | pixelSource (src : PixelSource)
deriving DecidableEq, Repr

/-- The state. The first sixteen fields are the spec's, the others the agents' and the model's own (INVENTORY.md). -/
structure State where
  /-- `SIZE` (R20). -/
  size        : SizeCode
  /-- `ROT` (R22). -/
  rot         : Rotation
  /-- `WIN_START_COL` (R23). -/
  winStartCol : Byte
  /-- `WIN_START_ROW` (R23). -/
  winStartRow : Byte
  /-- `WIN_END_COL`, exclusive (R23). -/
  winEndCol   : Byte
  /-- `WIN_END_ROW`, exclusive (R23). -/
  winEndRow   : Byte
  /-- `WIN_VALID` (R25). -/
  winValid    : Bool
  /-- `CUR_COL` (R24). -/
  curCol      : Byte
  /-- `CUR_ROW`, a pixel row (R24). -/
  curRow      : Byte
  /-- `FB`; nothing is listed where there is no framebuffer (R27). -/
  fb          : Memory
  /-- `MODE` (R28). -/
  mode        : Mode
  /-- `PHASE` (R29). -/
  phase       : Phase
  /-- `FAULT`, sticky (R30). -/
  fault       : Option FaultReason
  /-- `REFUSED`, sticky (R30). -/
  refused     : Option RefusalReason
  /-- `LOG`, oldest event first (R31). -/
  log         : List Event
  /-- The index of the next host operation (R34); it counts from 0, DESIGN CHOICE (log 25). -/
  pos         : Nat
  /-- The host's program (R34, R76, R154, R162; log 20). -/
  program     : List Entry
  /-- What the last operation that returned gave the host (R35, R200; log 18). -/
  result      : Option Result
  /-- The transport's answers to come (R213; log 6). -/
  transport   : Agent TransportErr
  /-- The host's reset pin's answers to come (R213; log 6). -/
  pin         : Agent PinErr
  /-- The number of the next free value (log 9). -/
  fresh       : Nat
deriving DecidableEq, Repr

/-- Why a step stops the machine. -/
inductive Fault where
  /-- Raised by `step` in a state whose `FAULT` is set: no further operation steps (R30). The spec's own; safe. -/
  | halted (reason : FaultReason)
  /-- Raised by a write whose agent never answers: the operation never returns (R242, U21; log 7). Safe. -/
  | agentSilent
  /-- Raised by an access to a framebuffer index that does not exist (log 12); no state that meets the invariant reaches
  it. Safe. -/
  | framebufferAbsent
  /-- Raised by DRAW when the cursor column is not left of the window's end, which R26 excludes (log 13); no state that
  meets the invariant reaches it. Safe. -/
  | cursorOutsideWindow
deriving DecidableEq, Repr

/-- Why the machine has no next state. -/
inductive Refusal where
  /-- Raised by `exec` for an instruction without a meaning; no arm is left so. Safe. -/
  | notModelled (mnemonic : String)
  /-- Raised by `step` in a state whose `REFUSED` is set: no further operation steps (R30). The spec's own; safe. -/
  | halted (reason : RefusalReason)
  /-- Raised by `step` when the host's program has no further operation: the run has ended (R242; log 15). Safe. -/
  | runEnded
  /-- Raised by a controller command in MODE NONE: no session owns a transport it could be written to (log 5). Safe. -/
  | noTransport
deriving DecidableEq, Repr

/-- An agent whose every answer is `Ok`: the no-op pin is one (R213, D40). -/
def Agent.alwaysOk (ε : Type) : Agent ε := ⟨[], .reply .ok⟩

/-- The machine right after reset. The block's reset is CONNECT (70_reset_and_hazards.md R230), here with the default
configuration (R190): every field has its value at connect (10_state.md section 6). The unspecified registers hold free
values (log 9), and the fields that are not the spec's hold the values logs 6, 9, 18 and 20 name. The spec gives the position no
value there: 0, with an empty program, is the model's, DESIGN CHOICE (log 25). -/
def State.reset : State where
  size        := .size128x64
  rot         := .deg0
  winStartCol := Config.freeByte 0
  winStartRow := Config.freeByte 1
  winEndCol   := Config.freeByte 2
  winEndRow   := Config.freeByte 3
  winValid    := false
  curCol      := Config.freeByte 4
  curRow      := Config.freeByte 5
  fb          := freshFramebuffer .size128x64 6
  mode        := .graphics
  phase       := .unreset
  fault       := none
  refused     := none
  log         := []
  pos         := 0
  program     := []
  result      := none
  transport   := Agent.alwaysOk TransportErr
  pin         := Agent.alwaysOk PinErr
  fresh       := 1030

/-- The start of a run: no session, nothing logged (70_reset_and_hazards.md R242). In MODE NONE the registers of a session
do not exist and nothing reads their bits (R162; log 16). The position 0 is the model's, DESIGN CHOICE (log 25), and so are the
values of the fields that are not the spec's (logs 6, 9, 18, 20). -/
def State.start : State where
  size        := .size128x64
  rot         := .deg0
  winStartCol := 0
  winStartRow := 0
  winEndCol   := 0
  winEndRow   := 0
  winValid    := false
  curCol      := 0
  curRow      := 0
  fb          := []
  mode        := .none
  phase       := .unreset
  fault       := none
  refused     := none
  log         := []
  pos         := 0
  program     := []
  result      := none
  transport   := Agent.alwaysOk TransportErr
  pin         := Agent.alwaysOk PinErr
  fresh       := 0

end Sys2Proof.Machine
end

