-- ==== Sys2Proof/Machine/Ops.lean ====
section
/-! DEFINITION. Machine/Ops.lean: the operations every meaning shares: the agents' answers, the updates of State, the event
primitives and `try` of spec/00_scope.md R8, error, fault and refusal entry (spec/60_exceptions.md R204, R205, R208), the mode
check (spec/30_encoding.md R77), and how a program's next entry is found and placed (spec/10_state.md R34). -/

namespace Sys2Proof.Machine

/-- The outcome of one step of this machine. -/
abbrev StepOutcome := Host.Outcome State Fault Refusal

/-- The next state of an outcome, if it has one. -/
def nextOf : StepOutcome → Option State
  | .next s => some s
  | .fault _ => none
  | .refused _ => none

/-! ## Agents (R213) -/

/-- The answer an agent gives to the n-th request from now, counting from 0. -/
def Agent.answer {ε : Type} (a : Agent ε) (n : Nat) : Answer ε := a.queue.getD n a.rest

/-- The agent after n requests. -/
def Agent.skip {ε : Type} (a : Agent ε) (n : Nat) : Agent ε := ⟨a.queue.drop n, a.rest⟩

/-- The agent answers the next n requests with `Ok`. -/
def Agent.grants {ε : Type} (a : Agent ε) (n : Nat) : Prop := ∀ k, k < n → a.answer k = .reply .ok

/-! ## Updates of State -/

/-- Appends an event to `LOG` (10_state.md R31). -/
def State.record (s : State) (e : Event) : State := { s with log := s.log ++ [e] }

/-- The transport with its next answers. -/
def State.setTransport (s : State) (a : Agent TransportErr) : State := { s with transport := a }

/-- The reset pin with its next answers. -/
def State.setPin (s : State) (a : Agent PinErr) : State := { s with pin := a }

/-- Records a draw window and sets `WIN_VALID` (R23, R25). -/
def State.setWindow (s : State) (sc sr ec er : Byte) : State :=
  { s with winStartCol := sc, winStartRow := sr, winEndCol := ec, winEndRow := er, winValid := true }

/-- Moves the cursor (R24). -/
def State.setCursor (s : State) (c r : Byte) : State := { s with curCol := c, curRow := r }

/-- Writes the framebuffer (R27). -/
def State.setFb (s : State) (m : Memory) : State := { s with fb := m }

/-- Writes `ROT` (R22). -/
def State.setRot (s : State) (r : Rotation) : State := { s with rot := r }

/-- Writes `MODE` (R28). -/
def State.setMode (s : State) (m : Mode) : State := { s with mode := m }

/-- Writes `PHASE` (R29). -/
def State.setPhase (s : State) (p : Phase) : State := { s with phase := p }

/-- Draws n free values (log 9). -/
def State.drawFree (s : State) (n : Nat) : State := { s with fresh := s.fresh + n }

/-- An operation returns: the host gets its result and the position moves to the next operation (R34, R200). -/
def State.returned (s : State) (r : Result) : State := { s with result := some r, pos := s.pos + 1 }

/-- The session ends: no mode and no framebuffer; the other registers of the session are gone (R162; log 16). -/
def State.endSession (s : State) : State := { s with mode := .none, fb := [] }

/-- The host goes on to the next entry of its program, and gets no result. -/
def State.skipEntry (s : State) : State := { s with pos := s.pos + 1 }

/-- Puts entries in the place of the one at the position. -/
def State.splice (s : State) (es : List Entry) : State :=
  { s with program := s.program.take s.pos ++ es ++ s.program.drop (s.pos + 1) }

/-- Records a fault reason (R30, R204). -/
def State.setFault (s : State) (r : FaultReason) : State := { s with fault := some r }

/-- Records a refusal reason (R30, R205). -/
def State.setRefused (s : State) (r : RefusalReason) : State := { s with refused := some r }

/-- The registers CONNECT sets (43_configuration.md R193): the window, the cursor and the framebuffer unspecified, that is,
free values drawn from the next numbers on; `FAULT`, `REFUSED` and `LOG` kept. -/
def State.openSession (s : State) (cfg : PanelConfig) : State :=
  { s with
    size        := cfg.size
    rot         := cfg.rot
    winStartCol := Config.freeByte s.fresh
    winStartRow := Config.freeByte (s.fresh + 1)
    winEndCol   := Config.freeByte (s.fresh + 2)
    winEndRow   := Config.freeByte (s.fresh + 3)
    winValid    := false
    curCol      := Config.freeByte (s.fresh + 4)
    curRow      := Config.freeByte (s.fresh + 5)
    fb          := freshFramebuffer cfg.size (s.fresh + 6)
    mode        := .graphics
    phase       := .unreset
    fresh       := s.fresh + 6 + cfg.size.fbBytes }

/-! ## Bodies of operations -/

/-- How far the body of an operation got: it ended; an event answered `Err(e)` and ended it at once (`try` of R8); it raised a
fault; or it never returns. In each case but the last with the state it leaves. -/
inductive Flow where
  | done (s : State)
  | failed (e : OpError) (s : State)
  | raised (r : FaultReason) (s : State)
  | stuck (f : Fault)

/-- `try X`, then the rest of the body: the rest runs only when X ended (R8). -/
def Flow.andThen (x : Flow) (k : State → Flow) : Flow :=
  match x with
  | .done s => k s
  | .failed e s => .failed e s
  | .raised r s => .raised r s
  | .stuck f => .stuck f

/-- Moves the lifecycle tag when a body returns `Ok` or `Err` (42_graphics_surface.md R159). -/
def Flow.movePhase (x : Flow) (onOk onErr : Phase → Phase) : Flow :=
  match x with
  | .done s => .done (s.setPhase (onOk s.phase))
  | .failed e s => .failed e (s.setPhase (onErr s.phase))
  | .raised r s => .raised r s
  | .stuck f => .stuck f

/-- One transport write, on either channel: the transport is asked once, the event is logged with the answer it got, and an
`Err(e)` ends the operation (R8, R61, R202, R208). -/
def transportWrite (event : Reply TransportErr → Event) (s : State) : Flow :=
  match s.transport.answer 0 with
  | .reply .ok => .done ((s.setTransport (s.transport.skip 1)).record (event .ok))
  | .reply (.err e) => .failed (.transport e) ((s.setTransport (s.transport.skip 1)).record (event (.err e)))
  | .never => .stuck .agentSilent

/-- `CmdWrite(bytes)`: one command-channel write (R8). -/
def cmdWrite (bytes : List Byte) (s : State) : Flow := transportWrite (.cmd bytes) s

/-- `DataWrite(bytes)`: one data-channel write (R8). -/
def dataWrite (bytes : List Byte) (s : State) : Flow := transportWrite (.data bytes) s

/-- `PinSet(level)`: one reset-pin operation (R8, R203). The no-op pin always answers `Ok` and its events are logged too
(R213, D40). -/
def pinSet (sel : PinSel) (level : Level) (s : State) : Flow :=
  match sel with
  | .noOp => .done (s.record (.pin level .ok))
  | .wired =>
    match s.pin.answer 0 with
    | .reply .ok => .done ((s.setPin (s.pin.skip 1)).record (.pin level .ok))
    | .reply (.err e) => .failed (.pin e) ((s.setPin (s.pin.skip 1)).record (.pin level (.err e)))
    | .never => .stuck .agentSilent

/-- `Delay(ms)`: one wait request; it cannot fail and always returns (R8, R213). -/
def delay (ms : Nat) (s : State) : Flow := .done (s.record (.wait ms))

/-! ## How an operation ends -/

/-- `raise Fault(reason)`: the reason is recorded, nothing else changes, and the position stays (R204, R34; log 14). -/
def raiseFault (r : FaultReason) (s : State) : StepOutcome := .next (s.setFault r)

/-- `refuse(reason)`: the reason is recorded, nothing else changes, and the position stays (R205, R34; log 14). -/
def refuseOp (r : RefusalReason) (s : State) : StepOutcome := .next (s.setRefused r)

/-- The end of an operation: `Ok(v)` and `Err(e)` return to the host, a fault is raised, a body that never returns stops the
machine (R200, R204, R208, R242). -/
def conclude (v : OpValue) (x : Flow) : StepOutcome :=
  match x with
  | .done s => .next (s.returned (.ok v))
  | .failed e s => .next (s.returned (.err e))
  | .raised r s => raiseFault r s
  | .stuck f => .fault f

/-- The modes an operation is admitted in (30_encoding.md R77). In NONE only CONNECT is (42_graphics_surface.md R162,
60_exceptions.md R205), so the configuration operations run in a session (log 17). -/
def admits (op : HostOp) (m : Mode) : Bool :=
  match op with
  | .connect => m == .none
  | .reset | .init | .clear | .setPixel | .pixelEvent | .flush | .release => m == .graphics
  | .initRaw | .setDrawArea | .draw | .enterGraphics => m == .raw
  | .withSize | .withRotation | .setRotation | .getDimensions | .displayOn | .setContrast | .unwrap =>
    m == .graphics || m == .raw

/-- The mode check, before anything else of an operation: a mode that R77 does not list refuses it with `ModeRefused`
(R120, R205, R207). -/
def gate (op : HostOp) (s : State) (run : StepOutcome) : StepOutcome :=
  if admits op s.mode then run else refuseOp (.modeRefused op.code s.mode) s

/-- One controller command on its own: its encoder function, in any session (40_command_encoder.md R100; logs 4 and 5). -/
def runCommand (send : State → Flow) (s : State) : StepOutcome :=
  match s.mode with
  | .none => .refused .noTransport
  | .graphics => conclude .unit (send s)
  | .raw => conclude .unit (send s)

/-! ## The host's program -/

/-- The stop of a state whose `FAULT` or `REFUSED` is set: no further operation steps (R30). -/
def haltOf (s : State) : Option StepOutcome :=
  match s.fault with
  | some r => some (.fault (.halted r))
  | none =>
    match s.refused with
    | some r => some (.refused (.halted r))
    | none => none

/-- The next entry of the program (R34); none when the run has ended (R242). -/
def fetch (s : State) : Option Entry := s.program[s.pos]?

/-- The entry of a program that coded bytes stand for: the operation they decode to, or an unassigned operation code; none for
bytes that are neither, which no program can hold (R76, R78; log 21). -/
def entryOfBytes (c : CodeBytes) : Option Entry :=
  match decode c with
  | .ok i => some (.operation i)
  | .error (.unknownOp code) => if h : hostOpOf code = none then some (.unassigned ⟨code, h⟩) else none
  | .error .noBytes => none
  | .error (.malformedOperands _) => none
  | .error (.notACommand _) => none
  | .error (.truncatedCommand _) => none
  | .error .trailingBytes => none

/-- Places an entry where the next one is fetched; the places a shorter program lacks before it are filled with producers that
yield nothing. -/
def State.placeEntry (s : State) (e : Entry) : State :=
  { s with
    program := s.program.take s.pos ++ List.replicate (s.pos - s.program.length) (.pixelSource ⟨[], []⟩)
      ++ e :: s.program.drop (s.pos + 1) }

/-- Ends the program at the position: no entry is left to run. -/
def State.endProgram (s : State) : State := { s with program := s.program.take s.pos }

/-- A pixel event as an operation (R153). -/
def eventInstr (e : PixelEvent) : Instr := .pixelEvent e.1 e.2.1 e.2.2

/-- A pixel event as an entry of its own: the operation a sequence of events stands for once per event (30_encoding.md
R80). -/
def pixelEventEntry (e : PixelEvent) : Entry := .operation (eventInstr e)

end Sys2Proof.Machine
end

