-- ==== Sys2Proof/Machine/Configure.lean ====
section
/-! DEFINITION. Machine/Configure.lean: the configuration operations and CONNECT (spec/43_configuration.md). -/

namespace Sys2Proof.Machine

/-- A configuration with a new size, its rotation kept (R191). -/
def withSizeValue (cfg : PanelConfig) (size : SizeCode) : PanelConfig := ⟨size, cfg.rot⟩

/-- A configuration with a new rotation, its size kept (R192). -/
def withRotationValue (cfg : PanelConfig) (rot : Rotation) : PanelConfig := ⟨cfg.size, rot⟩

/-- WITH_SIZE: a copy of a configuration with a new size; no block state is touched (R191; log 17). -/
def execWithSize (cfg : PanelConfig) (size : SizeCode) (s : State) : StepOutcome :=
  gate .withSize s (conclude (.config (withSizeValue cfg size)) (.done s))

/-- WITH_ROTATION: a copy of a configuration with a new rotation; no block state is touched (R192; log 17). -/
def execWithRotation (cfg : PanelConfig) (rot : Rotation) (s : State) : StepOutcome :=
  gate .withRotation s (conclude (.config (withRotationValue cfg rot)) (.done s))

/-- CONNECT: starts a session and sends nothing (R193). -/
def execConnect (cfg : PanelConfig) (s : State) : StepOutcome :=
  gate .connect s (conclude .unit (.done (s.openSession cfg)))

end Sys2Proof.Machine
end

