-- ==== Sys2Proof/Machine/Encoder.lean ====
section
/-! DEFINITION. Machine/Encoder.lean: the command protocol encoder (spec/40_command_encoder.md). Each encoder function builds
the byte list of its command and performs exactly one command-channel write of it (R100); these ten are the closed set (R111).
A controller command run as an instruction of its own is one call of its encoder function (log 4). -/

namespace Sys2Proof.Machine

/-- `Send_CLOCK_DIV(v)` (R101). -/
def sendClockDiv (v : Byte) : State → Flow := cmdWrite [0xD5, v]

/-- `Send_CONTRAST(v)` (R102). -/
def sendContrast (v : Byte) : State → Flow := cmdWrite [0x81, v]

/-- `Send_PRECHARGE(v)` (R103). -/
def sendPrecharge (v : Byte) : State → Flow := cmdWrite [0xD9, v]

/-- `Send_SCROLL(en)` (R104). -/
def sendScroll (en : Bool) : State → Flow := cmdWrite [if en then 0x2F else 0x2E]

/-- `Send_DISPLAY(on)` (R105). -/
def sendDisplay (on : Bool) : State → Flow := cmdWrite [if on then 0xAF else 0xAE]

/-- `Send_SEG_REMAP(b)` (R106). -/
def sendSegRemap (b : Bool) : State → Flow := cmdWrite [if b then 0xA1 else 0xA0]

/-- `Send_COM_DIR(b)`: 1 means reverse (R107). -/
def sendComDir (b : Bool) : State → Flow := cmdWrite [if b then 0xC8 else 0xC0]

/-- `Send_PAGE_START(p)`: a page above PAGE_MAX faults before any byte is written (R108). -/
def sendPageStart (p : Nat) (s : State) : Flow :=
  if p > lastPage then .raised (.pageOutOfRange p) s else cmdWrite [0xB0 + BitVec.ofNat 8 p] s

/-- `Send_COL_LOW(n)` (R109). -/
def sendColLow (n : BitVec 4) : State → Flow := cmdWrite [0x00 + n.setWidth 8]

/-- `Send_COL_HIGH(n)` (R110). -/
def sendColHigh (n : BitVec 4) : State → Flow := cmdWrite [0x10 + n.setWidth 8]

/-- CLOCK_DIV (R101). -/
def execClockDiv (v : Byte) (s : State) : StepOutcome := runCommand (sendClockDiv v) s

/-- CONTRAST (R102). -/
def execContrast (v : Byte) (s : State) : StepOutcome := runCommand (sendContrast v) s

/-- PRECHARGE (R103). -/
def execPrecharge (v : Byte) (s : State) : StepOutcome := runCommand (sendPrecharge v) s

/-- SCROLL_ON (R104). -/
def execScrollOn (s : State) : StepOutcome := runCommand (sendScroll true) s

/-- SCROLL_OFF (R104). -/
def execScrollOff (s : State) : StepOutcome := runCommand (sendScroll false) s

/-- DISPLAY_ON, the controller command (R105). -/
def execCmdDisplayOn (s : State) : StepOutcome := runCommand (sendDisplay true) s

/-- DISPLAY_OFF (R105). -/
def execCmdDisplayOff (s : State) : StepOutcome := runCommand (sendDisplay false) s

/-- SEG_REMAP_1 (R106). -/
def execSegRemap1 (s : State) : StepOutcome := runCommand (sendSegRemap true) s

/-- SEG_REMAP_0 (R106). -/
def execSegRemap0 (s : State) : StepOutcome := runCommand (sendSegRemap false) s

/-- COM_REVERSE (R107). -/
def execComReverse (s : State) : StepOutcome := runCommand (sendComDir true) s

/-- COM_NORMAL (R107). -/
def execComNormal (s : State) : StepOutcome := runCommand (sendComDir false) s

/-- PAGE_START (R108). -/
def execPageStart (p : Nat) (s : State) : StepOutcome := runCommand (sendPageStart p) s

/-- COL_LOW (R109). -/
def execColLow (n : BitVec 4) (s : State) : StepOutcome := runCommand (sendColLow n) s

/-- COL_HIGH (R110). -/
def execColHigh (n : BitVec 4) (s : State) : StepOutcome := runCommand (sendColHigh n) s

end Sys2Proof.Machine
end

