-- ==== Sys2Proof/Machine/Operands.lean ====
section
/-! DEFINITION. Machine/Operands.lean: how operands are read: the rotation-coordinate mapping (spec/20_memory.md R53), signed
coordinates (spec/42_graphics_surface.md R153), dimensions (spec/41_display_properties.md R130), the page and nibbles of a
cursor position (spec/30_encoding.md R72) and where the block believes a data byte lands (spec/20_memory.md R56). -/

namespace Sys2Proof.Machine

/-- Whether a rotation is of the 90 and 270 degree class, whose fast axis is y (R53, R130). -/
def swapsAxes : Rotation → Bool
  | .deg0 | .deg180 => false
  | .deg90 | .deg270 => true

/-- `Map(rot, x, y)`: the framebuffer index and bit of a pixel, none when the pixel is outside the buffer. Arithmetic is exact;
the first test is the primary bounds check against the unrotated width, the second the length guard (R53). -/
def pixelMap (size : SizeCode) (rot : Rotation) (x y : Nat) : Option (Nat × Nat) :=
  let fast := if swapsAxes rot then y else x
  let slow := if swapsAxes rot then x else y
  if fast < size.width then
    let idx := slow / pageHeight * size.width + fast
    if idx < size.fbBytes then some (idx, slow % pageHeight) else none
  else none

/-- A byte with bit k set or cleared, its other bits untouched (R51, 42_graphics_surface.md R151). -/
def writeBit (b : Byte) (k : Nat) (on : Bool) : Byte :=
  if on then b ||| ((1 : Byte) <<< k) else b &&& ~~~((1 : Byte) <<< k)

/-- Whether a signed 32-bit coordinate is negative (R153). -/
def isNegative (v : BitVec 32) : Bool := decide (v.toInt < 0)

/-- Width and height as a rotation shows them, each an 8-bit value (R130, D30). -/
def dimensionsOf (size : SizeCode) (rot : Rotation) : Byte × Byte :=
  if swapsAxes rot then (BitVec.ofNat 8 size.height, BitVec.ofNat 8 size.width)
  else (BitVec.ofNat 8 size.width, BitVec.ofNat 8 size.height)

/-- The page of a pixel row: the floor of the row over 8 (R121, D9). -/
def pageOf (row : Byte) : Nat := row.toNat / pageHeight

/-- Column bits 3 to 0 (R72). -/
def lowNibble (col : Byte) : BitVec 4 := col.extractLsb' 0 4

/-- Column bits 7 to 4 (R72). -/
def highNibble (col : Byte) : BitVec 4 := col.extractLsb' 4 4

/-- Where the block believes byte k of the next data write lands: a column and a page (R56). -/
def landing (s : State) (k : Nat) : Nat × Nat := (s.curCol.toNat + k, pageOf s.curRow)

/-- The visible area of the panel, as the size catalog defines it (R56). -/
def visible (size : SizeCode) (p : Nat × Nat) : Bool :=
  decide (size.colOff ≤ p.1 ∧ p.1 < size.colOff + size.width ∧ p.2 < size.height / pageHeight)

end Sys2Proof.Machine
end

