-- ==== Sys2Proof/Machine/Display.lean ====
section
/-! DEFINITION. Machine/Display.lean: Display Properties, the window tracker and the command sequences
(spec/41_display_properties.md). The bodies are shared with the Graphics Surface, which calls them without the mode check
(R120). -/

namespace Sys2Proof.Machine

/-- `SendDrawAddress()`: page, column low nibble, column high nibble of the cursor position (R121). -/
def sendDrawAddress (s : State) : Flow :=
  (sendPageStart (pageOf s.curRow) s).andThen fun s1 =>
    (sendColLow (lowNibble s1.curCol) s1).andThen fun s2 =>
      sendColHigh (highNibble s2.curCol) s2

/-- `REMAP(rot)`: segment remap and reverse COM direction (R128). -/
def remap : Rotation → Bool × Bool
  | .deg0   => (true, true)
  | .deg90  => (false, true)
  | .deg180 => (false, false)
  | .deg270 => (true, false)

/-- The remap pair of a rotation, segment remap first (R122, R129). -/
def sendRemap (rot : Rotation) (s : State) : Flow :=
  (sendSegRemap (remap rot).1 s).andThen (sendComDir (remap rot).2)

/-- `PHASE` after an initialization returned `Ok` (R159). -/
def phaseAfterInit : Phase → Phase
  | .unreset => .unreset
  | .resetNotInit => .ready
  | .ready => .ready

/-- The initialization sequence: seven command writes (R122). -/
def initSequence (s : State) : Flow :=
  (sendClockDiv Config.initClockDiv s).andThen fun s1 =>
    (sendRemap s1.rot s1).andThen fun s2 =>
      (sendContrast Config.initContrast s2).andThen fun s3 =>
        (sendPrecharge Config.initPrecharge s3).andThen fun s4 =>
          (sendScroll false s4).andThen (sendDisplay true)

/-- The initialization sequence with its effect on the lifecycle tag (R122, R159). -/
def initBody (s : State) : Flow := (initSequence s).movePhase phaseAfterInit fun _ => .unreset

/-- The body of SET_DRAW_AREA: an empty or inverted window faults before any register is written; else the window and the
cursor are recorded and the address sequence is sent (R123). -/
def drawAreaBody (sc sr ec er : Byte) (s : State) : Flow :=
  if sc.toNat < ec.toNat ∧ sr.toNat < er.toNat then
    sendDrawAddress ((s.setWindow sc sr ec er).setCursor sc sr)
  else .raised (.illegalWindow sc sr ec er) s

/-- The row a crossing moves to: eight rows on, or the window's start row when that reaches the end row. The sum is compared
before it is stored, so it never overflows the register (R125, D8). -/
def crossedRow (s : State) : Byte :=
  if s.curRow.toNat + pageHeight ≥ s.winEndRow.toNat then s.winStartRow
  else BitVec.ofNat 8 (s.curRow.toNat + pageHeight)

/-- `Cross()`: the cursor moves to the next page row of the window before anything is sent (R125). -/
def cross (s : State) : Flow := sendDrawAddress (s.setCursor s.winStartCol (crossedRow s))

/-- How many bytes fit between the cursor and the window's end column (R124). -/
def roomLeft (s : State) : Nat := s.winEndCol.toNat - s.curCol.toNat

/-- The cursor after `n` bytes were sent, and the crossing when it reached the window's end column (R124). -/
def advance (n : Nat) (s : State) : Flow :=
  let s' := s.setCursor (BitVec.ofNat 8 (s.curCol.toNat + n)) s.curRow
  if s'.curCol = s'.winEndCol then cross s' else .done s'

/-- DRAW's loop. A chunk is what fits in the row, or what remains when that is less: `take` stops at the shorter of the two
(R124, D7). Every pass sends at least one byte, so the input's own length bounds the passes: the first list only counts them.
A cursor that is not left of the window's end column is outside the rule (R26; log 13). -/
def drawLoop : List Byte → List Byte → State → Flow
  | _, [], s => .done s
  | [], _ :: _, _ => .stuck .cursorOutsideWindow
  | _ :: passes, b :: more, s =>
    if roomLeft s = 0 then .stuck .cursorOutsideWindow
    else
      (dataWrite ((b :: more).take (roomLeft s)) s).andThen fun s1 =>
        (advance ((b :: more).take (roomLeft s)).length s1).andThen fun s2 =>
          drawLoop passes ((b :: more).drop (roomLeft s)) s2

/-- The body of DRAW: without a window it faults, even with no bytes (R124, D12). -/
def drawBody (bytes : List Byte) (s : State) : Flow :=
  if s.winValid then drawLoop bytes bytes s else .raised .windowUnset s

/-- The body of SET_ROTATION: the register first, then the remap pair (R129). -/
def rotationBody (rot : Rotation) (s : State) : Flow := sendRemap rot (s.setRot rot)

/-- INITIALIZE (R122). -/
def execInitRaw (s : State) : StepOutcome := gate .initRaw s (conclude .unit (initBody s))

/-- SET_DRAW_AREA (R123). -/
def execSetDrawArea (sc sr ec er : Byte) (s : State) : StepOutcome :=
  gate .setDrawArea s (conclude .unit (drawAreaBody sc sr ec er s))

/-- DRAW (R124). -/
def execDraw (bytes : List Byte) (s : State) : StepOutcome := gate .draw s (conclude .unit (drawBody bytes s))

/-- SET_ROTATION (R129). -/
def execSetRotation (rot : Rotation) (s : State) : StepOutcome :=
  gate .setRotation s (conclude .unit (rotationBody rot s))

/-- GET_DIMENSIONS: no event and no state change but the result (R130). -/
def execGetDimensions (s : State) : StepOutcome :=
  gate .getDimensions s
    (conclude (.dimensions (dimensionsOf s.size s.rot).1 (dimensionsOf s.size s.rot).2) (.done s))

/-- DISPLAY_ON, the host operation (R131). -/
def execDisplayOn (on : Bool) (s : State) : StepOutcome := gate .displayOn s (conclude .unit (sendDisplay on s))

/-- SET_CONTRAST (R132). -/
def execSetContrast (v : Byte) (s : State) : StepOutcome := gate .setContrast s (conclude .unit (sendContrast v s))

end Sys2Proof.Machine
end

