-- ==== Sys2Proof/Machine/Surface.lean ====
section
/-! DEFINITION. Machine/Surface.lean: the Graphics Surface: framebuffer operations, FLUSH, the reset pulse, initialization
through the surface, the mode conversions and the end of a session (spec/42_graphics_surface.md). -/

namespace Sys2Proof.Machine

/-- The values of the parameter FLUSH_DIMS (00_scope.md R6, R152). -/
inductive FlushDims where
  | rotated | unrotated
deriving DecidableEq, Repr

/-- FLUSH_DIMS: the source's value (R6, R152, D23, 90_conflicts.md C2; log 11). -/
def flushDims : FlushDims := .rotated

/-- `FlushDims()`: the geometry FLUSH uses (R152). -/
def flushDimensions (d : FlushDims) (s : State) : Byte × Byte :=
  match d with
  | .rotated => dimensionsOf s.size s.rot
  | .unrotated => (BitVec.ofNat 8 s.size.width, BitVec.ofNat 8 s.size.height)

/-- The number of bytes FLUSH sends: width times height over 8 (R155). -/
def flushLength (d : FlushDims) (s : State) : Nat :=
  (flushDimensions d s).1.toNat * (flushDimensions d s).2.toNat / 8

/-- The body of FLUSH: the window over the whole visible area, then the framebuffer's bytes in ascending order (R155). -/
def flushBody (d : FlushDims) (s : State) : Flow :=
  (drawAreaBody (BitVec.ofNat 8 s.size.colOff) 0
      (BitVec.ofNat 8 ((flushDimensions d s).1.toNat + s.size.colOff)) (flushDimensions d s).2 s).andThen fun s1 =>
    match s1.fb.readSeq 0 (flushLength d s) with
    | some bytes => drawBody bytes s1
    | none => .stuck .framebufferAbsent

/-- The body of SET_PIXEL: one bit of one byte, or nothing where the pixel is outside the buffer (R151). -/
def setPixelBody (x y : Nat) (on : Bool) (s : State) : Flow :=
  match pixelMap s.size s.rot x y with
  | none => .done s
  | some (idx, bit) =>
    match s.fb.read idx with
    | some b => .done (s.setFb (s.fb.write idx (writeBit b bit on)))
    | none => .stuck .framebufferAbsent

/-- The body of PIXEL_EVENT: a negative component drops the event (R153). -/
def pixelEventBody (x y : BitVec 32) (color : Bool) (s : State) : Flow :=
  if isNegative x || isNegative y then .done s else setPixelBody x.toNat y.toNat color s

/-- The reset pulse: high, low, high, each followed by a wait (R156). -/
def resetPulse (pin : PinSel) (s : State) : Flow :=
  (pinSet pin .high s).andThen fun s1 =>
    (delay resetDelayMs s1).andThen fun s2 =>
      (pinSet pin .low s2).andThen fun s3 =>
        (delay resetDelayMs s3).andThen fun s4 =>
          (pinSet pin .high s4).andThen (delay resetDelayMs)

/-- The reset pulse with its effect on the lifecycle tag (R156, R159). -/
def resetBody (pin : PinSel) (s : State) : Flow :=
  (resetPulse pin s).movePhase (fun _ => .resetNotInit) fun _ => .unreset

/-- CLEAR (R150). -/
def execClear (s : State) : StepOutcome :=
  gate .clear s (conclude .unit (.done (s.setFb (clearedFramebuffer s.size))))

/-- SET_PIXEL: any value but zero sets the pixel (R151, D35). -/
def execSetPixel (x y : BitVec 32) (value : Byte) (s : State) : StepOutcome :=
  gate .setPixel s (conclude .unit (setPixelBody x.toNat y.toNat (decide (value ≠ 0)) s))

/-- PIXEL_EVENT (R153). -/
def execPixelEvent (x y : BitVec 32) (color : Bool) (s : State) : StepOutcome :=
  gate .pixelEvent s (conclude .unit (pixelEventBody x y color s))

/-- FLUSH (R155). -/
def execFlush (s : State) : StepOutcome := gate .flush s (conclude .unit (flushBody flushDims s))

/-- RESET: the controller's reset pulse, not a reset of the block (R156, 70_reset_and_hazards.md R231). -/
def execReset (pin : PinSel) (s : State) : StepOutcome := gate .reset s (conclude .unit (resetBody pin s))

/-- INIT: the initialization sequence through the surface (R157). -/
def execInit (s : State) : StepOutcome := gate .init s (conclude .unit (initBody s))

/-- RELEASE: to RAW, without the framebuffer; everything else is kept (R160). -/
def execRelease (s : State) : StepOutcome :=
  gate .release s (conclude .unit (.done ((s.setMode .raw).setFb [])))

/-- ENTER_GRAPHICS: to GRAPHICS, with a new unspecified framebuffer; everything else is kept (R161). -/
def execEnterGraphics (s : State) : StepOutcome :=
  gate .enterGraphics s
    (conclude .unit
      (.done (((s.setMode .graphics).setFb (freshFramebuffer s.size s.fresh)).drawFree s.size.fbBytes)))

/-- UNWRAP: the session ends and the transport goes back to the host (R162; log 16). -/
def execUnwrap (s : State) : StepOutcome :=
  gate .unwrap s (conclude .transport (.done s.endSession))

end Sys2Proof.Machine
end

