-- ==== Sys2Proof/Machine/Dispatch.lean ====
section
/-! DEFINITION. Machine/Dispatch.lean: the meaning of every instruction, one arm per constructor. -/

namespace Sys2Proof.Machine

def exec (i : Instr) (s : State) : Host.Outcome State Fault Refusal :=
  match i with
  -- controller commands (spec/40_command_encoder.md)
  | .clockDiv v => Sys2Proof.Machine.execClockDiv v s
  | .contrast v => Sys2Proof.Machine.execContrast v s
  | .precharge v => Sys2Proof.Machine.execPrecharge v s
  | .scrollOn => Sys2Proof.Machine.execScrollOn s
  | .scrollOff => Sys2Proof.Machine.execScrollOff s
  | .cmdDisplayOn => Sys2Proof.Machine.execCmdDisplayOn s
  | .cmdDisplayOff => Sys2Proof.Machine.execCmdDisplayOff s
  | .segRemap1 => Sys2Proof.Machine.execSegRemap1 s
  | .segRemap0 => Sys2Proof.Machine.execSegRemap0 s
  | .comReverse => Sys2Proof.Machine.execComReverse s
  | .comNormal => Sys2Proof.Machine.execComNormal s
  | .pageStart p => Sys2Proof.Machine.execPageStart p s
  | .colLow n => Sys2Proof.Machine.execColLow n s
  | .colHigh n => Sys2Proof.Machine.execColHigh n s
  -- configuration and connect (spec/43_configuration.md)
  | .connect cfg => Sys2Proof.Machine.execConnect cfg s
  | .withSize cfg size => Sys2Proof.Machine.execWithSize cfg size s
  | .withRotation cfg rot => Sys2Proof.Machine.execWithRotation cfg rot s
  -- reset and initialization
  | .reset pin => Sys2Proof.Machine.execReset pin s
  | .init => Sys2Proof.Machine.execInit s
  | .initRaw => Sys2Proof.Machine.execInitRaw s
  -- the framebuffer (spec/42_graphics_surface.md)
  | .clear => Sys2Proof.Machine.execClear s
  | .setPixel x y value => Sys2Proof.Machine.execSetPixel x y value s
  | .pixelEvent x y color => Sys2Proof.Machine.execPixelEvent x y color s
  | .flush => Sys2Proof.Machine.execFlush s
  -- the window (spec/41_display_properties.md)
  | .setDrawArea startCol startRow endCol endRow => Sys2Proof.Machine.execSetDrawArea startCol startRow endCol endRow s
  | .draw bytes => Sys2Proof.Machine.execDraw bytes s
  -- pass-throughs
  | .setRotation rot => Sys2Proof.Machine.execSetRotation rot s
  | .getDimensions => Sys2Proof.Machine.execGetDimensions s
  | .displayOn on => Sys2Proof.Machine.execDisplayOn on s
  | .setContrast v => Sys2Proof.Machine.execSetContrast v s
  -- mode conversions
  | .release => Sys2Proof.Machine.execRelease s
  | .enterGraphics => Sys2Proof.Machine.execEnterGraphics s
  | .unwrap => Sys2Proof.Machine.execUnwrap s

end Sys2Proof.Machine
end

