-- ==== Sys2Proof/Machine/Program.lean ====
section
/-! DEFINITION. Machine/Program.lean: what the machine does with an entry of the host's program: an operation, an unassigned code, the
drop of the surface (spec/42_graphics_surface.md R162) and a producer of pixel events (R154). -/

namespace Sys2Proof.Machine

/-- The next event a producer yields, and what is left of it; none when it yields no more (R154). -/
def nextEvent (src : PixelSource) : Option (PixelEvent × PixelSource) :=
  match src.queue, src.cycle with
  | e :: es, cycle => some (e, ⟨es, cycle⟩)
  | [], e :: es => some (e, ⟨es, e :: es⟩)
  | [], [] => none

/-- An operation code that no operation has is refused with `UnknownOp` (30_encoding.md R78, 60_exceptions.md R205). -/
def runUnassigned (c : UnassignedCode) (s : State) : StepOutcome := refuseOp (.unknownOp c.code) s

/-- The surface is dropped without UNWRAP: the session ends, no event is logged, and nothing is returned, the transport
neither (R162; log 22). -/
def runDrop (s : State) : StepOutcome := .next s.endSession.skipEntry

/-- A producer is asked for one event. The event is an operation of its own, in the producer's place and before what is left of
it; a producer that yields no more stands for no further operation (R154, 30_encoding.md R80). -/
def runPixelSource (src : PixelSource) (s : State) : StepOutcome :=
  match nextEvent src with
  | some (e, rest) => exec (eventInstr e) (s.splice [pixelEventEntry e, .pixelSource rest])
  | none => .next (s.splice [])

/-- What the machine does with an entry of the program. -/
def runEntry (e : Entry) (s : State) : StepOutcome :=
  match e with
  | .operation i => exec i s
  | .unassigned c => runUnassigned c s
  | .dropSurface => runDrop s
  | .pixelSource src => runPixelSource src s

end Sys2Proof.Machine
end

