-- ==== Sys2Proof/Machine/Step.lean ====
section
/-! DEFINITION. Machine/Step.lean: one step: the next operation of the host's program runs to completion (spec/00_scope.md R3,
spec/10_state.md R34). -/

namespace Sys2Proof.Machine

/-- One step. A recorded fault or refusal stops it (R30); else the next entry of the program runs. The position moves when the
operation returns, which is part of executing it (R34). -/
def step (s : State) : Host.Outcome State Fault Refusal :=
  match haltOf s with
  | some stop => stop
  | none =>
    match fetch s with
    | none => .refused .runEnded
    | some e => runEntry e s

/-- The state with the operation of an opcode table word placed where the next step fetches its operation (log 20). A word that
is no operation cannot be placed, and the program ends there (log 21). -/
def State.withFetchWord (s : State) (nbits w : Nat) : State :=
  match entryOfBytes (bytesOfWord nbits w) with
  | some e => s.placeEntry e
  | none => s.endProgram

end Sys2Proof.Machine
end

