-- ==== Sys2Proof/Machine/Flags.lean ====
section
/-! DEFINITION. Machine/Flags.lean: the block has no flag register (spec/10_state.md R35); the only status an operation reports
is its outcome. This file gives the outcomes their codes (spec/60_exceptions.md R200, R201). -/

namespace Sys2Proof.Machine

/-- The code of an error a session goes on after (R201). -/
def OpError.code : OpError → Byte
  | .transport _ => 0x01
  | .pin _ => 0x02

/-- The code of a fault reason (R201). -/
def FaultReason.code : FaultReason → Byte
  | .pageOutOfRange _ => 0x10
  | .illegalWindow _ _ _ _ => 0x11
  | .windowUnset => 0x12

/-- The code of a refusal reason (R201). -/
def RefusalReason.code : RefusalReason → Byte
  | .modeRefused _ _ => 0x20
  | .unknownOp _ => 0x21

/-- The code of what a state reports to the host: a refusal or fault that is recorded, else the error of the last operation
that returned; none after `Ok` (R200, R201). -/
def State.reasonCode (s : State) : Option Byte :=
  match s.refused, s.fault, s.result with
  | some r, _, _ => some r.code
  | none, some r, _ => some r.code
  | none, none, some (.err e) => some e.code
  | none, none, some (.ok _) => none
  | none, none, none => none

/-- A state a run can end in: neither `FAULT` nor `REFUSED` is set and no operation is left (R30, R242). -/
def State.final (s : State) : Bool := s.fault.isNone && s.refused.isNone && decide (s.program.length ≤ s.pos)

end Sys2Proof.Machine
end

