-- ==== Sys2Proof/Safety.lean ====
section
/-! DEFINITION. Safety.lean: what counts as a good state and how statements read a log: the invariant every step keeps, the
events a block may emit, the counts of spec/41_display_properties.md R126 and the controller position the block believes in
(spec/20_memory.md R56). -/

namespace Sys2Proof.Machine

/-! ## The invariant -/

/-- The window invariant (10_state.md R26), and that the cursor row is a whole number of pages below the window's start row,
which the cursor's moves keep (R123, R125). -/
structure State.WindowOk (s : State) : Prop where
  cols    : s.winStartCol.toNat < s.winEndCol.toNat
  rows    : s.winStartRow.toNat < s.winEndRow.toNat
  colLow  : s.winStartCol.toNat ≤ s.curCol.toNat
  colHigh : s.curCol.toNat < s.winEndCol.toNat
  rowLow  : s.winStartRow.toNat ≤ s.curRow.toNat
  rowHigh : s.curRow.toNat < s.winEndRow.toNat
  aligned : (s.curRow.toNat - s.winStartRow.toNat) % pageHeight = 0

/-- An event the block may emit: a command write holds exactly one command of the closed set (30_encoding.md R70, R75), a data
write 1 to 255 bytes (20_memory.md R59), and the only wait is the reset pulse's (60_exceptions.md R214). -/
def Event.legal : Event → Bool
  | .cmd bytes _ => (decodeCommand bytes).toOption.isSome
  | .data bytes _ => decide (1 ≤ bytes.length ∧ bytes.length ≤ 255)
  | .pin _ _ => true
  | .wait ms => decide (ms = resetDelayMs)

/-- The invariant: the framebuffer exists exactly in GRAPHICS and then has exactly its indices (10_state.md R27, R28), a valid
window holds its cursor (R26), and every logged event is one the block may emit. -/
structure State.Inv (s : State) : Prop where
  fbPresent : s.mode = .graphics → s.fb.covers s.size.fbBytes
  fbAbsent  : s.mode ≠ .graphics → s.fb = []
  window    : s.winValid = true → s.WindowOk
  events    : ∀ e ∈ s.log, e.legal = true

/-! ## Reading a log -/

/-- The error an event was answered with, if any (R202, R203). -/
def Event.error : Event → Option OpError
  | .cmd _ (.err e) => some (.transport e)
  | .data _ (.err e) => some (.transport e)
  | .pin _ (.err e) => some (.pin e)
  | .cmd _ .ok => none
  | .data _ .ok => none
  | .pin _ .ok => none
  | .wait _ => none

/-- The bytes of the data writes of a log, one write after another. -/
def dataOf (es : List Event) : List Byte :=
  es.flatMap fun e => match e with
    | .data bytes _ => bytes
    | .cmd _ _ => []
    | .pin _ _ => []
    | .wait _ => []

/-- Whether an event is a data write. -/
def isData : Event → Bool
  | .data _ _ => true
  | .cmd _ _ => false
  | .pin _ _ => false
  | .wait _ => false

/-- Whether an event is a PAGE_START command, the first of an address sequence (R121). -/
def isPageStart : Event → Bool
  | .cmd bytes _ => match decodeCommand bytes with
    | .ok (.pageStart _) => true
    | _ => false
  | .data _ _ => false
  | .pin _ _ => false
  | .wait _ => false

/-- The three writes of an address sequence, all answered `Ok` (R121). -/
def addressEvents (page : Nat) (col : Byte) : List Event :=
  [.cmd [0xB0 + BitVec.ofNat 8 page] .ok, .cmd [(lowNibble col).setWidth 8] .ok,
   .cmd [0x10 + (highNibble col).setWidth 8] .ok]

/-- The seven writes of the initialization sequence with the bytes of the remap pair, all answered `Ok` (R122). -/
def initEvents (seg com : Byte) : List Event :=
  [.cmd [0xD5, Config.initClockDiv] .ok, .cmd [seg] .ok, .cmd [com] .ok, .cmd [0x81, Config.initContrast] .ok,
   .cmd [0xD9, Config.initPrecharge] .ok, .cmd [0x2E] .ok, .cmd [0xAF] .ok]

/-- The bytes of a rotation's remap pair (R128). -/
def remapBytes : Rotation → Byte × Byte
  | .deg0   => (0xA1, 0xC8)
  | .deg90  => (0xA0, 0xC8)
  | .deg180 => (0xA0, 0xC0)
  | .deg270 => (0xA1, 0xC0)

/-- The six events of a reset pulse in which every pin write is answered `Ok` (R156). -/
def pulseEvents : List Event :=
  [.pin .high .ok, .wait 10, .pin .low .ok, .wait 10, .pin .high .ok, .wait 10]

/-- The state after n transport writes were answered `Ok` and logged as the events given. -/
def State.sent (s : State) (es : List Event) : State :=
  { s with log := s.log ++ es, transport := s.transport.skip es.length }

/-- Instructions executed one after another, each from the state the one before it left. -/
def execAll : List Instr → State → StepOutcome
  | [], s => .next s
  | i :: is, s =>
    match exec i s with
    | .next t => execAll is t
    | .fault f => .fault f
    | .refused r => .refused r

/-- n steps, one after another. -/
def runSteps : Nat → State → StepOutcome
  | 0, s => .next s
  | n + 1, s =>
    match step s with
    | .next t => runSteps n t
    | .fault f => .fault f
    | .refused r => .refused r

/-- The first n events a producer yields, fewer where it ends before (R154). -/
def firstEvents : Nat → PixelSource → List PixelEvent
  | 0, _ => []
  | n + 1, src =>
    match nextEvent src with
    | some (e, rest) => e :: firstEvents n rest
    | none => []

/-! ## Runs cut by an error -/

/-- A transport write as it is logged when it is answered with an error. -/
def Event.failedWith (e : TransportErr) : Event → Event
  | .cmd bytes _ => .cmd bytes (.err e)
  | .data bytes _ => .data bytes (.err e)
  | .pin level answer => .pin level answer
  | .wait ms => .wait ms

/-- The events of a run whose k-th write, counting from 0, is answered with an error: those before it, and it (R208). -/
def cutAt (es : List Event) (k : Nat) (e : TransportErr) : List Event :=
  es.take k ++ ((es.drop k).take 1).map (Event.failedWith e)

/-- The same operation met by a transport that answers every write `Ok`. -/
def State.granted (s : State) : State := { s with transport := Agent.alwaysOk TransportErr }

/-- The events of a flush of eight page rows of w bytes, every write answered `Ok`: the address sequence of (0, 0), then each
row's data write and the address sequence of the next page, after the last row that of page 0 (R155). -/
def flushEvents (w : Nat) (bytes : List Byte) : List Event :=
  addressEvents 0 0 ++
    (List.range 8).flatMap fun p => .data ((bytes.drop (w * p)).take w) .ok :: addressEvents ((p + 1) % 8) 0

/-! ## The counts of DRAW (R126) -/

/-- `w`: the columns of the window. -/
def windowWidth (s : State) : Nat := s.winEndCol.toNat - s.winStartCol.toNat

/-- `h8`: the page rows of the window. -/
def windowPages (s : State) : Nat := (s.winEndRow.toNat - s.winStartRow.toNat + 7) / 8

/-- Every page row of the window is a page the encoder can send (70_reset_and_hazards.md R238). -/
def windowFits (s : State) : Prop := (s.winStartRow.toNat + 8 * (windowPages s - 1)) / 8 ≤ 7

/-- `K`: the crossings of a DRAW of n bytes. -/
def drawCrossings (s : State) (n : Nat) : Nat :=
  if n < roomLeft s then 0 else 1 + (n - roomLeft s) / windowWidth s

/-- The data writes of a DRAW of n bytes. -/
def drawWrites (s : State) (n : Nat) : Nat :=
  if n = 0 then 0 else if n ≤ roomLeft s then 1
  else 1 + (n - roomLeft s + windowWidth s - 1) / windowWidth s

/-! ## The controller position the block believes in (R56) -/

/-- A controller position: page and column. -/
structure Pointer where
  page : Nat
  col  : Nat
deriving DecidableEq, Repr

/-- The block's own position, from its cursor (R121). -/
def State.pointer (s : State) : Pointer := ⟨pageOf s.curRow, s.curCol.toNat⟩

/-- How an event moves the believed position: an address command that was answered `Ok` sets its part, a data write that was
answered `Ok` moves the column by its length. -/
def Pointer.after (p : Pointer) : Event → Pointer
  | .cmd bytes .ok => match decodeCommand bytes with
    | .ok (.pageStart n) => { p with page := n }
    | .ok (.colLow n) => { p with col := p.col / 16 * 16 + n.toNat }
    | .ok (.colHigh n) => { p with col := n.toNat * 16 + p.col % 16 }
    | _ => p
  | .cmd _ (.err _) => p
  | .data bytes .ok => { p with col := p.col + bytes.length }
  | .data _ (.err _) => p
  | .pin _ _ => p
  | .wait _ => p

/-- The believed position after the events of a log. -/
def believed (p : Pointer) (es : List Event) : Pointer := es.foldl Pointer.after p

/-- Where the block believes each data byte of a log lands, in order (R56). -/
def landings : Pointer → List Event → List Pointer
  | _, [] => []
  | p, .data bytes r :: es =>
    (List.range bytes.length).map (fun k => ⟨p.page, p.col + k⟩) ++ landings (p.after (.data bytes r)) es
  | p, .cmd bytes r :: es => landings (p.after (.cmd bytes r)) es
  | p, .pin l r :: es => landings (p.after (.pin l r)) es
  | p, .wait ms :: es => landings (p.after (.wait ms)) es

end Sys2Proof.Machine
end

