-- ==== Sys2Proof/Certificates/Slice0/Obligations.lean ====
section
/-! DEFINITION. Certificates/Slice0/Obligations.lean: the statements for the provers. Each docstring names the rules of spec/
it rests on. `s.sent es` is s with the events es logged and as many answers of the transport used; `s.returned r` is s with the
result r handed to the host and the position moved to the next operation. -/

open Sys2Proof Sys2Proof.Machine

/-! ## Encoding -/

/-- Every well-formed instruction is read back from its own bytes, with every operand (30_encoding.md, formats of R70, R71, R76,
R77; the operand layout of host operations is the model's, log 2). -/
def Obligations.DecodeOfEncodeIsTheInstruction : Prop :=
  ∀ i : Instr, i.wf = true → decode (encode i) = .ok i

/-- The first byte of a command gives its length: 0x81, 0xD5 and 0xD9 begin two-byte commands, every other first byte the block
emits is a one-byte command; so a stream without write boundaries is split into its commands by first bytes alone (R73). -/
def Obligations.CommandStreamSplitsByFirstBytes : Prop :=
  (∀ (b : Byte) (c : Command), commandOf b = some c → c.length = if b = 0x81 ∨ b = 0xD5 ∨ b = 0xD9 then 2 else 1) ∧
  (∀ is : List Instr, (∀ i ∈ is, i.wf = true ∧ i.isCommand = true) → decodeStream (encodeStream is) = .ok is)

/-- The opcode map of the first byte: a byte names at most one command, 0x00 to 0x0F COL_LOW, 0x10 to 0x1F COL_HIGH, 0xB0 to 0xB7
PAGE_START, and 0xB8 to 0xBF none (R74, R75). -/
def Obligations.CommandRowsAreDisjoint : Prop :=
  (∀ (b : Byte) (c d : Command), c.covers b = true → d.covers b = true → c = d) ∧
  (∀ b : Byte,
    (b.toNat ≤ 0x0F → commandOf b = some .colLow) ∧
    (0x10 ≤ b.toNat → b.toNat ≤ 0x1F → commandOf b = some .colHigh) ∧
    (0xB0 ≤ b.toNat → b.toNat ≤ 0xB7 → commandOf b = some .pageStart) ∧
    (0xB8 ≤ b.toNat → b.toNat ≤ 0xBF → commandOf b = none))

/-- Command words written out from R71, and host operations as bytes, with the codes of R77 and the model's operand layout (log 2:
R76 gives a host operation no serialisation), read as the instructions they stand for. -/
def Obligations.SpecWordsDecode : Prop :=
  decode ⟨.controllerCommand, [0b11010101, 0x80]⟩ = .ok (.clockDiv 0x80) ∧
  decode ⟨.controllerCommand, [0b10000001, 0x7F]⟩ = .ok (.contrast 0x7F) ∧
  decode ⟨.controllerCommand, [0b11011001, 0xF1]⟩ = .ok (.precharge 0xF1) ∧
  decode ⟨.controllerCommand, [0b10110011]⟩ = .ok (.pageStart 3) ∧
  decode ⟨.controllerCommand, [0b00001010]⟩ = .ok (.colLow 0xA) ∧
  decode ⟨.controllerCommand, [0b00010101]⟩ = .ok (.colHigh 0x5) ∧
  decode ⟨.controllerCommand, [0b10101110]⟩ = .ok .cmdDisplayOff ∧
  decode ⟨.hostOperation, [0x23]⟩ = .ok .flush ∧
  decode ⟨.hostOperation, [0x30, 10, 8, 20, 24]⟩ = .ok (.setDrawArea 10 8 20 24) ∧
  decode ⟨.hostOperation, [0x40, 3]⟩ = .ok (.setRotation .deg270)

/-! ## Steps -/

/-- A step of a state without a recorded fault or refusal runs the operation at the position, a value (10_state.md, position;
30_encoding.md R76). A table word that decodes to an instruction, placed at the position, is that operation there, changes
nothing but the program, and the next step runs it (that a program is a list in State, and how a word is placed, is log 20; how
a word is read, logs 2 and 3). -/
def Obligations.StepRunsTheDecodedInstruction : Prop :=
  ∀ (s : State) (i : Instr), s.fault = none → s.refused = none →
    (s.program[s.pos]? = some (.operation i) → step s = exec i s) ∧
    (∀ nbits w : Nat, decodeTableWord nbits w = some i →
      s.withFetchWord nbits w = { s with program := (s.withFetchWord nbits w).program } ∧
      (s.withFetchWord nbits w).program[s.pos]? = some (.operation i) ∧
      step (s.withFetchWord nbits w) = exec i (s.withFetchWord nbits w))

/-- FAULT and REFUSED are sticky: a state with either set is never final, no operation steps from it, no instruction, CONNECT
among them, clears either, and both are none at connect (R30). -/
def Obligations.FaultAndRefusedAreSticky : Prop :=
  (∀ (s : State) (r : FaultReason), s.fault = some r → step s = .fault (.halted r) ∧ s.final = false) ∧
  (∀ (s : State) (r : RefusalReason), s.refused = some r →
    s.final = false ∧ (s.fault = none → step s = .refused (.halted r))) ∧
  (∀ (i : Instr) (s t : State), exec i s = .next t →
    (s.fault ≠ none → t.fault ≠ none) ∧ (s.refused ≠ none → t.refused ≠ none)) ∧
  State.reset.fault = none ∧ State.reset.refused = none

/-- A host operation code that R77 does not list is refused with UnknownOp: the reason is recorded and nothing else changes
(R78, R205). Every such code can stand in a program, and no other. -/
def Obligations.UnlistedCodeIsRefusedAsUnknownOp : Prop :=
  (∀ (s : State) (c : UnassignedCode), s.fault = none → s.refused = none → s.program[s.pos]? = some (.unassigned c) →
    step s = .next { s with refused := some (.unknownOp c.code) }) ∧
  (∀ code : Byte, (∃ c : UnassignedCode, c.code = code) ↔ ∀ op : HostOp, op.code ≠ code)

/-- An operation that returns moves the position by one; one that faults or is refused leaves it, and the last result (R34; that
these still answer a next state is log 14, that the result stays is log 18). -/
def Obligations.PositionMovesExactlyOnReturn : Prop :=
  ∀ (i : Instr) (s t : State), s.fault = none → s.refused = none → exec i s = .next t →
    (t.fault = none ∧ t.refused = none → t.pos = s.pos + 1) ∧
    (t.fault ≠ none ∨ t.refused ≠ none → t.pos = s.pos ∧ t.result = s.result)

/-- A host operation in a mode that R77 does not list for it is refused with ModeRefused before anything else: the reason is
recorded and nothing else changes (R205, R207). In NONE everything but CONNECT is refused (R205, R162), WITH_SIZE and
WITH_ROTATION among it. -/
def Obligations.WrongModeIsRefusedBeforeAnythingElse : Prop :=
  ∀ (s : State) (m : Mode), s.mode = m →
    (m ≠ .none → ∀ cfg, exec (.connect cfg) s = .next { s with refused := some (.modeRefused 0x01 m) }) ∧
    (m ≠ .graphics →
      (∀ pin, exec (.reset pin) s = .next { s with refused := some (.modeRefused 0x10 m) }) ∧
      exec .init s = .next { s with refused := some (.modeRefused 0x11 m) } ∧
      exec .clear s = .next { s with refused := some (.modeRefused 0x20 m) } ∧
      (∀ x y v, exec (.setPixel x y v) s = .next { s with refused := some (.modeRefused 0x21 m) }) ∧
      (∀ x y c, exec (.pixelEvent x y c) s = .next { s with refused := some (.modeRefused 0x22 m) }) ∧
      exec .flush s = .next { s with refused := some (.modeRefused 0x23 m) } ∧
      exec .release s = .next { s with refused := some (.modeRefused 0x50 m) }) ∧
    (m ≠ .raw →
      exec .initRaw s = .next { s with refused := some (.modeRefused 0x12 m) } ∧
      (∀ a b c d, exec (.setDrawArea a b c d) s = .next { s with refused := some (.modeRefused 0x30 m) }) ∧
      (∀ bytes, exec (.draw bytes) s = .next { s with refused := some (.modeRefused 0x31 m) }) ∧
      exec .enterGraphics s = .next { s with refused := some (.modeRefused 0x51 m) }) ∧
    (m = .none →
      (∀ cfg size, exec (.withSize cfg size) s = .next { s with refused := some (.modeRefused 0x02 m) }) ∧
      (∀ cfg rot, exec (.withRotation cfg rot) s = .next { s with refused := some (.modeRefused 0x03 m) }) ∧
      (∀ rot, exec (.setRotation rot) s = .next { s with refused := some (.modeRefused 0x40 m) }) ∧
      exec .getDimensions s = .next { s with refused := some (.modeRefused 0x41 m) } ∧
      (∀ on, exec (.displayOn on) s = .next { s with refused := some (.modeRefused 0x42 m) }) ∧
      (∀ v, exec (.setContrast v) s = .next { s with refused := some (.modeRefused 0x43 m) }) ∧
      exec .unwrap s = .next { s with refused := some (.modeRefused 0x52 m) })

/-- The model's own stops, each by its name and all of them the model's choice: no operation left (log 15), which is also what is
found where a table word that is no instruction and no unlisted code was to be placed (log 21), and a controller command with no
session (log 5). -/
def Obligations.ModelStopsByName : Prop :=
  (∀ s : State, s.fault = none → s.refused = none → s.program[s.pos]? = none → step s = .refused .runEnded) ∧
  (∀ (s : State) (nbits w : Nat) (e : DecodeError), s.fault = none → s.refused = none →
    decode (bytesOfWord nbits w) = .error e → (∀ c, e ≠ .unknownOp c) → step (s.withFetchWord nbits w) = .refused .runEnded) ∧
  (∀ (i : Instr) (s : State), i.isCommand = true → s.mode = .none → exec i s = .refused .noTransport)

/-- An operation whose first write is never answered never returns, whichever operation it is, and RESET not when any of its three
pin writes is not answered (R242); the machine stops by name (log 7). For a later transport write see
`FirstBadAnswerCutsTheRun`. -/
def Obligations.SilentTransportStopsTheOperation : Prop :=
  (∀ (i : Instr) (s : State), s.transport.answer 0 = .never →
    (s.mode ≠ .none ∧
      ((i.isCommand = true ∧ i.wf = true) ∨ (∃ on, i = .displayOn on) ∨ (∃ v, i = .setContrast v) ∨
        (∃ rot, i = .setRotation rot))) ∨
    (s.mode = .graphics ∧ (i = .init ∨ i = .flush)) ∨
    (s.mode = .raw ∧
      (i = .initRaw ∨
        (∃ sc sr ec er : Byte, i = .setDrawArea sc sr ec er ∧ sc.toNat < ec.toNat ∧ sr.toNat < er.toNat ∧
          sr.toNat / 8 ≤ 7) ∨
        (∃ bytes, i = .draw bytes ∧ bytes ≠ [] ∧ s.winValid = true ∧ s.curCol.toNat < s.winEndCol.toNat))) →
    exec i s = .fault .agentSilent) ∧
  (∀ (s : State) (k : Nat), s.mode = .graphics → k < 3 → s.pin.grants k → s.pin.answer k = .never →
    exec (.reset .wired) s = .fault .agentSilent)

/-! ## Reset and connect -/

/-- What reset leaves: the values at connect that the spec gives (R230), with the default configuration. -/
def Obligations.ResetHasTheValuesAtConnect : Prop :=
  State.reset.size = .size128x64 ∧ State.reset.rot = .deg0 ∧ State.reset.winValid = false ∧
  State.reset.mode = .graphics ∧ State.reset.phase = .unreset ∧ State.reset.log = [] ∧
  State.reset.fault = none ∧ State.reset.refused = none ∧
  (∀ i, i < 1024 → (State.reset.fb.read i).isSome = true) ∧ (∀ i, 1024 ≤ i → State.reset.fb.read i = none)

/-- The invariant holds at reset. -/
def Obligations.ResetMeetsTheInvariant : Prop := State.reset.Inv

/-- CONNECT in MODE NONE completes, sends nothing, sets the registers as R193 lists them (of the window, the cursor and the
framebuffer's bytes it says only that they exist: they are free values, log 9) and keeps FAULT, REFUSED and LOG; with a session
open it is refused (R193). That the transport's and the pin's answers to come are unchanged is the model's choice: CONNECT's
transport operand is the script in State (log 6). -/
def Obligations.ConnectOpensASession : Prop :=
  ∀ (cfg : PanelConfig) (s : State),
    (s.mode = .none → ∃ t, exec (.connect cfg) s = .next t ∧
      t.size = cfg.size ∧ t.rot = cfg.rot ∧ t.winValid = false ∧ t.mode = .graphics ∧ t.phase = .unreset ∧
      (∀ i, i < 1024 → (t.fb.read i).isSome = true) ∧ (∀ i, 1024 ≤ i → t.fb.read i = none) ∧
      t.log = s.log ∧ t.transport = s.transport ∧ t.pin = s.pin ∧ t.program = s.program ∧
      t.fault = s.fault ∧ t.refused = s.refused ∧ t.result = some (.ok .unit) ∧ t.pos = s.pos + 1) ∧
    (s.mode ≠ .none → exec (.connect cfg) s = .next { s with refused := some (.modeRefused 0x01 s.mode) })

/-- CONNECT keeps nothing of an earlier session (R193, R162): two states without a session that agree on LOG, FAULT, REFUSED, the
position, the program and the agents, whatever else they hold, go to states that agree on everything but the unspecified
registers (the window, the cursor, FB) and the model's count of free values, of which nothing is said (log 9). The agents'
scripts, the program and the result are the model's fields (logs 6, 18, 20). -/
def Obligations.ConnectForgetsTheEarlierSession : Prop :=
  ∀ (cfg : PanelConfig) (s t u : State), s.mode = .none → t.mode = .none →
    t.log = s.log → t.pos = s.pos → t.program = s.program → t.fault = s.fault → t.refused = s.refused →
    t.transport = s.transport → t.pin = s.pin → exec (.connect cfg) s = .next u →
    ∃ v, exec (.connect cfg) t = .next v ∧
      v = { u with
        winStartCol := v.winStartCol, winStartRow := v.winStartRow, winEndCol := v.winEndCol, winEndRow := v.winEndRow,
        curCol := v.curCol, curRow := v.curRow, fb := v.fb, fresh := v.fresh }

/-- From the start of a run, CONNECT with the default configuration leads to the reset state, one operation further. That the
reset state is the state after CONNECT is the model's reading (log 1), and that the position is 0 in both states its choice
(log 25). The equality also fixes the unspecified window, cursor and framebuffer bytes and the count of free values: that they
are the draws 0 to 1029, and 1030 the next, is the model's numbering (log 9) and no rule of the spec; so are the values of the
model's own fields, the agents' answers, the result and the empty program, in both states (logs 6, 18, 20). -/
def Obligations.ConnectFromTheStartIsReset : Prop :=
  exec (.connect PanelConfig.default) State.start = .next (State.reset.returned (.ok .unit))

/-- WITH_SIZE and WITH_ROTATION complete in every session, return the changed configuration and touch no state of the block
(R191, R192); in NONE, where anything but CONNECT is refused, they are (R205, R162). That a session admits them, in both its
modes, is the model's reading of 'configuration only' (log 17). -/
def Obligations.ConfigurationOperationsArePure : Prop :=
  ∀ (cfg : PanelConfig) (size : SizeCode) (rot : Rotation) (s : State),
    (s.mode ≠ .none →
      exec (.withSize cfg size) s = .next (s.returned (.ok (.config ⟨size, cfg.rot⟩))) ∧
      exec (.withRotation cfg rot) s = .next (s.returned (.ok (.config ⟨cfg.size, rot⟩)))) ∧
    (s.mode = .none →
      exec (.withSize cfg size) s = .next { s with refused := some (.modeRefused 0x02 .none) } ∧
      exec (.withRotation cfg rot) s = .next { s with refused := some (.modeRefused 0x03 .none) })

/-! ## The command encoder -/

/-- A controller command run in a session performs exactly one command write, of its own bytes, and returns that write's answer
unchanged: Ok, or the transport's error, which is logged with the write (R100, R202). That a command can be run on its own is the
model's reading (log 4). -/
def Obligations.CommandSendsExactlyItsEncoding : Prop :=
  ∀ (i : Instr) (s : State), i.wf = true → i.isCommand = true → s.mode ≠ .none →
    (s.transport.answer 0 = .reply .ok →
      exec i s = .next ((s.sent [.cmd (encode i).bytes .ok]).returned (.ok .unit))) ∧
    (∀ e, s.transport.answer 0 = .reply (.err e) →
      exec i s = .next ((s.sent [.cmd (encode i).bytes (.err e)]).returned (.err (.transport e))))

/-- The bytes of the two-byte commands and of the commands with a field, and of each fixed command (R101 to R107, R109, R110; run
as instructions of their own, log 4). -/
def Obligations.CommandBytesAreTheSpecs : Prop :=
  ∀ (s : State) (v : Byte) (n : BitVec 4), s.mode ≠ .none → s.transport.answer 0 = .reply .ok →
    exec (.clockDiv v) s = .next ((s.sent [.cmd [0xD5, v] .ok]).returned (.ok .unit)) ∧
    exec (.contrast v) s = .next ((s.sent [.cmd [0x81, v] .ok]).returned (.ok .unit)) ∧
    exec (.precharge v) s = .next ((s.sent [.cmd [0xD9, v] .ok]).returned (.ok .unit)) ∧
    exec .scrollOn s = .next ((s.sent [.cmd [0x2F] .ok]).returned (.ok .unit)) ∧
    exec .scrollOff s = .next ((s.sent [.cmd [0x2E] .ok]).returned (.ok .unit)) ∧
    exec .cmdDisplayOn s = .next ((s.sent [.cmd [0xAF] .ok]).returned (.ok .unit)) ∧
    exec .cmdDisplayOff s = .next ((s.sent [.cmd [0xAE] .ok]).returned (.ok .unit)) ∧
    exec .segRemap1 s = .next ((s.sent [.cmd [0xA1] .ok]).returned (.ok .unit)) ∧
    exec .segRemap0 s = .next ((s.sent [.cmd [0xA0] .ok]).returned (.ok .unit)) ∧
    exec .comReverse s = .next ((s.sent [.cmd [0xC8] .ok]).returned (.ok .unit)) ∧
    exec .comNormal s = .next ((s.sent [.cmd [0xC0] .ok]).returned (.ok .unit)) ∧
    exec (.colLow n) s = .next ((s.sent [.cmd [BitVec.ofNat 8 (0x00 + n.toNat)] .ok]).returned (.ok .unit)) ∧
    exec (.colHigh n) s = .next ((s.sent [.cmd [BitVec.ofNat 8 (0x10 + n.toNat)] .ok]).returned (.ok .unit))

/-- PAGE_START sends 0xB0 + p for p up to 7; a larger page faults with PageOutOfRange(p) and nothing is emitted (R108;
run as an instruction of its own, log 4). -/
def Obligations.PageStartSendsOrFaults : Prop :=
  ∀ (s : State) (p : Nat), s.mode ≠ .none →
    (p ≤ 7 → s.transport.answer 0 = .reply .ok →
      exec (.pageStart p) s = .next ((s.sent [.cmd [BitVec.ofNat 8 (0xB0 + p)] .ok]).returned (.ok .unit))) ∧
    (p ≤ 7 → ∀ e, s.transport.answer 0 = .reply (.err e) →
      exec (.pageStart p) s =
        .next ((s.sent [.cmd [BitVec.ofNat 8 (0xB0 + p)] (.err e)]).returned (.err (.transport e)))) ∧
    (p > 7 → exec (.pageStart p) s = .next { s with fault := some (.pageOutOfRange p) })

/-- Frame of the fourteen controller commands: whatever the answer, nothing changes but LOG, the transport's answers, the
position, the result and, for a PAGE_START above 7, FAULT; no framebuffer byte changes (R100; log 4). -/
def Obligations.CommandsWriteNoRegister : Prop :=
  ∀ (i : Instr) (s t : State), i.isCommand = true → exec i s = .next t →
    t = { s with log := t.log, transport := t.transport, pos := t.pos, result := t.result, fault := t.fault } ∧
    (∀ a, t.fb.read a = s.fb.read a) ∧ (i.wf = true → t.fault = s.fault)

/-! ## Display Properties -/

/-- SET_DRAW_AREA in RAW (R123). An empty or inverted window faults before any register is written. Else the window and the
cursor are recorded: a start row past page 7 then faults with nothing sent; with every write answered Ok the page, the low and
the high nibble of the start are sent in this order; an error at the k-th of these writes is logged and returned, the window and
the cursor stay recorded, and no later write is made. -/
def Obligations.SetDrawAreaRecordsTheWindow : Prop :=
  ∀ (s u : State) (sc sr ec er : Byte), s.mode = .raw →
    u = { s with
      winStartCol := sc, winStartRow := sr, winEndCol := ec, winEndRow := er, winValid := true,
      curCol := sc, curRow := sr } →
    (¬(sc.toNat < ec.toNat ∧ sr.toNat < er.toNat) →
      exec (.setDrawArea sc sr ec er) s = .next { s with fault := some (.illegalWindow sc sr ec er) }) ∧
    (sc.toNat < ec.toNat → sr.toNat < er.toNat → sr.toNat / 8 > 7 →
      exec (.setDrawArea sc sr ec er) s = .next { u with fault := some (.pageOutOfRange (sr.toNat / 8)) }) ∧
    (sc.toNat < ec.toNat → sr.toNat < er.toNat → sr.toNat / 8 ≤ 7 →
      (s.transport.grants 3 →
        exec (.setDrawArea sc sr ec er) s =
          .next ((u.sent
            [.cmd [BitVec.ofNat 8 (0xB0 + sr.toNat / 8)] .ok, .cmd [BitVec.ofNat 8 (sc.toNat % 16)] .ok,
             .cmd [BitVec.ofNat 8 (0x10 + sc.toNat / 16)] .ok]).returned (.ok .unit))) ∧
      (∀ (k : Nat) (e : TransportErr), k < 3 → s.transport.grants k → s.transport.answer k = .reply (.err e) →
        ∃ bytes, (addressEvents (sr.toNat / 8) sc)[k]? = some (.cmd bytes .ok) ∧
          exec (.setDrawArea sc sr ec er) s =
            .next ((u.sent ((addressEvents (sr.toNat / 8) sc).take k ++ [.cmd bytes (.err e)])).returned
              (.err (.transport e)))))

/-- DRAW without a window faults with WindowUnset, whatever the bytes, even none; nothing else changes (R124, R204). -/
def Obligations.DrawWithoutAWindowFaults : Prop :=
  ∀ (s : State) (bytes : List Byte), s.mode = .raw → s.winValid = false →
    exec (.draw bytes) s = .next { s with fault := some .windowUnset }

/-- DRAW of a chunk that does not reach the window's end column: one data write, the cursor moves by its length, no address
sequence; of no bytes, nothing (R124). -/
def Obligations.DrawShortChunkStaysInTheRow : Prop :=
  ∀ (s : State) (bytes : List Byte), s.mode = .raw → s.winValid = true →
    s.curCol.toNat + bytes.length < s.winEndCol.toNat →
    (bytes = [] → exec (.draw bytes) s = .next (s.returned (.ok .unit))) ∧
    (bytes ≠ [] → s.transport.answer 0 = .reply .ok →
      exec (.draw bytes) s =
        .next ((({ s with curCol := BitVec.ofNat 8 (s.curCol.toNat + bytes.length) } : State).sent
          [.data bytes .ok]).returned (.ok .unit)))

/-- DRAW of a chunk that ends exactly at the window's end column crosses: the cursor moves to the start column and the next page
row, wrapping to the start row when the end row is reached, and the address sequence follows even though no bytes remain (R124,
R125). -/
def Obligations.DrawFullRowCrosses : Prop :=
  ∀ (s : State) (bytes : List Byte) (row : Byte), s.mode = .raw → s.winValid = true → bytes ≠ [] →
    s.curCol.toNat + bytes.length = s.winEndCol.toNat → s.transport.grants 4 →
    (s.curRow.toNat + 8 ≥ s.winEndRow.toNat → row = s.winStartRow) →
    (s.curRow.toNat + 8 < s.winEndRow.toNat → row.toNat = s.curRow.toNat + 8) →
    (row.toNat / 8 ≤ 7 →
      exec (.draw bytes) s =
        .next ((({ s with curCol := s.winStartCol, curRow := row } : State).sent
          (.data bytes .ok :: addressEvents (row.toNat / 8) s.winStartCol)).returned (.ok .unit))) ∧
    (row.toNat / 8 > 7 →
      exec (.draw bytes) s =
        .next { (({ s with curCol := s.winStartCol, curRow := row } : State).sent [.data bytes .ok]) with
          fault := some (.pageOutOfRange (row.toNat / 8)) })

/-- DRAW's errors (R124, R125, R208). A first data write that fails leaves the cursor where it was. A page command that fails after
the first full row finds the cursor already moved. In general, whichever write of the run fails, the k-th of the events the
same DRAW logs when every write is answered Ok: the events before it and the failing one are logged, the error is returned, and
the cursor is where the crossings begun by then have put it, in the window's page rows counted round, at the start column after
the first of them. -/
def Obligations.DrawErrorsAreExact : Prop :=
  (∀ (s : State) (bytes : List Byte) (e : TransportErr), s.mode = .raw → s.winValid = true → bytes ≠ [] →
    s.curCol.toNat < s.winEndCol.toNat →
    (s.transport.answer 0 = .reply (.err e) →
      exec (.draw bytes) s =
        .next ((s.sent [.data (bytes.take (s.winEndCol.toNat - s.curCol.toNat)) (.err e)]).returned
          (.err (.transport e)))) ∧
    (s.winEndCol.toNat - s.curCol.toNat ≤ bytes.length → pageOf (crossedRow s) ≤ 7 →
      s.transport.answer 0 = .reply .ok → s.transport.answer 1 = .reply (.err e) →
      exec (.draw bytes) s =
        .next ((({ s with curCol := s.winStartCol, curRow := crossedRow s } : State).sent
          [.data (bytes.take (s.winEndCol.toNat - s.curCol.toNat)) .ok,
           .cmd [BitVec.ofNat 8 (0xB0 + pageOf (crossedRow s))] (.err e)]).returned (.err (.transport e))))) ∧
  (∀ (s t : State) (bytes : List Byte) (es : List Event) (k c : Nat) (e : TransportErr),
    s.mode = .raw → s.winValid = true → s.WindowOk →
    exec (.draw bytes) s.granted = .next t → t.log = s.log ++ es →
    k < es.length → s.transport.grants k → s.transport.answer k = .reply (.err e) →
    c = (es.take (k + 1)).countP isPageStart →
    exec (.draw bytes) s =
      .next ((({ s with
          curCol := if c = 0 then s.curCol else s.winStartCol,
          curRow := BitVec.ofNat 8 (s.winStartRow.toNat +
            8 * (((s.curRow.toNat - s.winStartRow.toNat) / 8 + c) % windowPages s)) } : State).sent
        (cutAt es k e)).returned (.err (.transport e))))

/-- DRAW of any bytes into a window all of whose page rows the encoder can send, with every write answered Ok, returns Ok, and its
data writes put together are exactly the bytes (R126). -/
def Obligations.DrawSendsExactlyItsBytes : Prop :=
  ∀ (s : State) (bytes : List Byte), s.mode = .raw → s.winValid = true → s.WindowOk → windowFits s →
    s.transport.grants (4 * bytes.length) →
    ∃ t es, exec (.draw bytes) s = .next t ∧ t.log = s.log ++ es ∧ t.result = some (.ok .unit) ∧
      t.fault = s.fault ∧ t.pos = s.pos + 1 ∧ dataOf es = bytes

/-- The number of address sequences and of data writes of such a DRAW (R126). -/
def Obligations.DrawCountsAreTheSpecs : Prop :=
  ∀ (s t : State) (bytes : List Byte) (es : List Event), s.mode = .raw → s.winValid = true → s.WindowOk → windowFits s →
    s.transport.grants (4 * bytes.length) → exec (.draw bytes) s = .next t → t.log = s.log ++ es →
    es.countP isPageStart = drawCrossings s bytes.length ∧
    es.countP isData = drawWrites s bytes.length ∧
    es.length = drawWrites s bytes.length + 3 * drawCrossings s bytes.length

/-- Where such a DRAW leaves the cursor: its row is the window's start row plus eight times the page rows crossed, counted round
the window, and its column follows from the bytes after the last crossing (R126, R127). -/
def Obligations.DrawMovesTheCursorRoundTheWindow : Prop :=
  ∀ (s t : State) (bytes : List Byte), s.mode = .raw → s.winValid = true → s.WindowOk → windowFits s →
    s.transport.grants (4 * bytes.length) → exec (.draw bytes) s = .next t →
    t.curRow.toNat = s.winStartRow.toNat +
      8 * (((s.curRow.toNat - s.winStartRow.toNat) / 8 + drawCrossings s bytes.length) % windowPages s) ∧
    t.curCol.toNat =
      (if bytes.length < roomLeft s then s.curCol.toNat + bytes.length
       else s.winStartCol.toNat + (bytes.length - roomLeft s) % windowWidth s)

/-- The block's cursor is the controller position its own log gives, all through a DRAW that completes, and no data byte is
meant to land outside the window's columns or page rows, or below page 7 (R26, R56, R126). -/
def Obligations.DrawLandsInsideTheWindow : Prop :=
  ∀ (s t : State) (bytes : List Byte) (es : List Event), s.mode = .raw → s.winValid = true → s.WindowOk → windowFits s →
    s.transport.grants (4 * bytes.length) → exec (.draw bytes) s = .next t → t.log = s.log ++ es →
    believed s.pointer es = t.pointer ∧
    (landings s.pointer es).length = bytes.length ∧
    ∀ p ∈ landings s.pointer es,
      s.winStartCol.toNat ≤ p.col ∧ p.col < s.winEndCol.toNat ∧
      s.winStartRow.toNat / 8 ≤ p.page ∧ p.page ≤ (s.winEndRow.toNat - 1) / 8 ∧ p.page ≤ 7

/-- Frame of DRAW: whatever the answers, the window, ROT, SIZE, MODE, PHASE, FB and everything else stay; only the cursor, LOG,
the transport's answers, the position, the result, FAULT and REFUSED may change; a window stays valid or invalid (R124, R125). -/
def Obligations.DrawWritesOnlyTheCursor : Prop :=
  ∀ (s t : State) (bytes : List Byte), exec (.draw bytes) s = .next t →
    t = { s with
      curCol := t.curCol, curRow := t.curRow, log := t.log, transport := t.transport, pos := t.pos,
      result := t.result, fault := t.fault, refused := t.refused } ∧
    (∀ a, t.fb.read a = s.fb.read a)

/-- SET_ROTATION in a session (R129, with the pairs of R128): ROT is written first, then segment remap and COM direction are sent
in this order; an error at either write is logged and returned, no later write is made, and ROT stays changed. The framebuffer,
the window and the cursor are untouched. -/
def Obligations.SetRotationSendsTheRemapPair : Prop :=
  ∀ (s : State) (rot : Rotation), s.mode ≠ .none →
    (s.transport.grants 2 →
      exec (.setRotation rot) s =
        .next ((({ s with rot := rot } : State).sent
          [.cmd [(remapBytes rot).1] .ok, .cmd [(remapBytes rot).2] .ok]).returned (.ok .unit))) ∧
    (∀ e, s.transport.answer 0 = .reply (.err e) →
      exec (.setRotation rot) s =
        .next ((({ s with rot := rot } : State).sent [.cmd [(remapBytes rot).1] (.err e)]).returned
          (.err (.transport e)))) ∧
    (∀ e, s.transport.answer 0 = .reply .ok → s.transport.answer 1 = .reply (.err e) →
      exec (.setRotation rot) s =
        .next ((({ s with rot := rot } : State).sent
          [.cmd [(remapBytes rot).1] .ok, .cmd [(remapBytes rot).2] (.err e)]).returned (.err (.transport e))))

/-- GET_DIMENSIONS in a session: (128, 64) at 0 and 180 degrees, (64, 128) at 90 and 270, no event, no other change (R130). -/
def Obligations.GetDimensionsFollowsTheRotation : Prop :=
  ∀ s : State, s.mode ≠ .none →
    (s.rot = .deg0 ∨ s.rot = .deg180 → exec .getDimensions s = .next (s.returned (.ok (.dimensions 128 64)))) ∧
    (s.rot = .deg90 ∨ s.rot = .deg270 → exec .getDimensions s = .next (s.returned (.ok (.dimensions 64 128))))

/-- DISPLAY_ON sends 0xAF or 0xAE and SET_CONTRAST sends 0x81 and the value, in any session, as one command write; a transport
error is logged with the write and returned unchanged; the block records nothing of it (R131, R132). -/
def Obligations.PassThroughsSendOneCommand : Prop :=
  ∀ (s : State) (v : Byte), s.mode ≠ .none →
    (s.transport.answer 0 = .reply .ok →
      exec (.displayOn true) s = .next ((s.sent [.cmd [0xAF] .ok]).returned (.ok .unit)) ∧
      exec (.displayOn false) s = .next ((s.sent [.cmd [0xAE] .ok]).returned (.ok .unit)) ∧
      exec (.setContrast v) s = .next ((s.sent [.cmd [0x81, v] .ok]).returned (.ok .unit))) ∧
    (∀ e, s.transport.answer 0 = .reply (.err e) →
      exec (.displayOn true) s = .next ((s.sent [.cmd [0xAF] (.err e)]).returned (.err (.transport e))) ∧
      exec (.displayOn false) s = .next ((s.sent [.cmd [0xAE] (.err e)]).returned (.err (.transport e))) ∧
      exec (.setContrast v) s = .next ((s.sent [.cmd [0x81, v] (.err e)]).returned (.err (.transport e))))

/-- INITIALIZE in RAW and INIT in GRAPHICS (R122, R157): the same seven commands, with the remap pair of ROT, and Ok; they write
no register but PHASE. An initialization that fails at its k-th write logs the writes before it and the failing one, returns
the error, sends nothing more, and sends PHASE to UNRESET. -/
def Obligations.InitializationSendsTheSequence : Prop :=
  ∀ (s : State) (i : Instr), (i = .initRaw ∧ s.mode = .raw) ∨ (i = .init ∧ s.mode = .graphics) →
    (s.transport.grants 7 →
      exec i s =
        .next ((({ s with phase := if s.phase = .unreset then .unreset else .ready } : State).sent
          (initEvents (remapBytes s.rot).1 (remapBytes s.rot).2)).returned (.ok .unit))) ∧
    (∀ (k : Nat) (e : TransportErr), k < 7 → s.transport.grants k → s.transport.answer k = .reply (.err e) →
      ∃ bytes, (initEvents (remapBytes s.rot).1 (remapBytes s.rot).2)[k]? = some (.cmd bytes .ok) ∧
        exec i s =
          .next ((({ s with phase := .unreset } : State).sent
            ((initEvents (remapBytes s.rot).1 (remapBytes s.rot).2).take k ++ [.cmd bytes (.err e)])).returned
              (.err (.transport e))))

/-- Frame of the operations that only talk to the transport: SET_ROTATION may change ROT, INITIALIZE and INIT may change PHASE, and
nothing else but LOG, the transport's answers, the position, the result and REFUSED changes; no framebuffer byte changes
(R122, R129 to R132, R157, R158). -/
def Obligations.PassThroughsLeaveTheRest : Prop :=
  ∀ (i : Instr) (s t : State),
    (∃ rot, i = .setRotation rot) ∨ i = .getDimensions ∨ (∃ on, i = .displayOn on) ∨ (∃ v, i = .setContrast v) ∨
      i = .initRaw ∨ i = .init →
    exec i s = .next t →
    t = { s with
      rot := t.rot, phase := t.phase, log := t.log, transport := t.transport, pos := t.pos, result := t.result,
      refused := t.refused } ∧
    (∀ a, t.fb.read a = s.fb.read a) ∧
    ((∀ rot, i ≠ .setRotation rot) → t.rot = s.rot) ∧
    (i ≠ .initRaw → i ≠ .init → t.phase = s.phase)

/-! ## Graphics Surface -/

/-- CLEAR in GRAPHICS completes with no event: every framebuffer byte reads 0x00 and nothing else changes (R150). -/
def Obligations.ClearZeroesEveryByte : Prop :=
  ∀ s : State, s.mode = .graphics → ∃ m, exec .clear s = .next (({ s with fb := m } : State).returned (.ok .unit)) ∧
    (∀ i, i < 1024 → m.read i = some 0x00) ∧ (∀ i, 1024 ≤ i → m.read i = none)

/-- CLEAR's framebuffer is what writing 0x00 to each index in turn leaves of a whole framebuffer (R150, R55). -/
def Obligations.ClearIsTheLoopOfWrites : Prop :=
  ∀ m : Memory, m.covers 1024 →
    (List.range 1024).foldl (fun acc i => acc.write i 0x00) m = clearedFramebuffer .size128x64

/-- Map (R53): the index and bit of a pixel, written out for both rotation classes, with the exact domain R54 gives. -/
def Obligations.PixelMapIsTheSpecs : Prop :=
  ∀ (x y : Nat) (rot : Rotation),
    (rot = .deg0 ∨ rot = .deg180 →
      pixelMap .size128x64 rot x y = if x < 128 ∧ y < 64 then some (y / 8 * 128 + x, y % 8) else none) ∧
    (rot = .deg90 ∨ rot = .deg270 →
      pixelMap .size128x64 rot x y = if y < 128 ∧ x < 64 then some (x / 8 * 128 + y, x % 8) else none)

/-- What follows of Map (R54): the exact domain, the same result at 0 and 180 degrees and at 90 and 270, and a bijection from the
coordinates in range onto the 1024 times 8 bit positions. -/
def Obligations.PixelMapIsABijection : Prop :=
  (∀ x y,
    ((pixelMap .size128x64 .deg0 x y).isSome = true ↔ x < 128 ∧ y < 64) ∧
    ((pixelMap .size128x64 .deg90 x y).isSome = true ↔ y < 128 ∧ x < 64) ∧
    pixelMap .size128x64 .deg180 x y = pixelMap .size128x64 .deg0 x y ∧
    pixelMap .size128x64 .deg270 x y = pixelMap .size128x64 .deg90 x y) ∧
  ∀ rot : Rotation,
    (∀ x y x' y' p, pixelMap .size128x64 rot x y = some p → pixelMap .size128x64 rot x' y' = some p → x = x' ∧ y = y') ∧
    (∀ x y idx bit, pixelMap .size128x64 rot x y = some (idx, bit) → idx < 1024 ∧ bit < 8) ∧
    (∀ idx bit, idx < 1024 → bit < 8 → ∃ x y, pixelMap .size128x64 rot x y = some (idx, bit))

/-- SET_PIXEL (R151): with no position the pixel is silently ignored and nothing changes; else its bit is set for any value but
zero and cleared for zero, the byte's other bits and every other byte are untouched, nothing else changes and nothing is sent. -/
def Obligations.SetPixelWritesOneBit : Prop :=
  ∀ (s : State) (x y : BitVec 32) (value : Byte), s.mode = .graphics → s.Inv →
    (pixelMap s.size s.rot x.toNat y.toNat = none → exec (.setPixel x y value) s = .next (s.returned (.ok .unit))) ∧
    (∀ idx bit, pixelMap s.size s.rot x.toNat y.toNat = some (idx, bit) →
      ∃ m b c, exec (.setPixel x y value) s = .next (({ s with fb := m } : State).returned (.ok .unit)) ∧
        s.fb.read idx = some b ∧ m.read idx = some c ∧
        c.getLsbD bit = decide (value ≠ 0) ∧ (∀ k, k ≠ bit → c.getLsbD k = b.getLsbD k) ∧
        (∀ a, a ≠ idx → m.read a = s.fb.read a))

/-- PIXEL_EVENT: a negative component drops the event with Ok; otherwise it does what SET_PIXEL does with 1 or 0, and completes
(R153). -/
def Obligations.PixelEventClipsOrSetsThePixel : Prop :=
  ∀ (s : State) (x y : BitVec 32) (color : Bool), s.mode = .graphics →
    (x.toInt < 0 ∨ y.toInt < 0 → exec (.pixelEvent x y color) s = .next (s.returned (.ok .unit))) ∧
    (0 ≤ x.toInt → 0 ≤ y.toInt →
      exec (.pixelEvent x y color) s = exec (.setPixel x y (if color then 1 else 0)) s) ∧
    (s.Inv → ∃ t, exec (.pixelEvent x y color) s = .next t ∧ t.result = some (.ok .unit) ∧ t.log = s.log)

/-- Frame of the framebuffer writers: CLEAR, SET_PIXEL and PIXEL_EVENT change FB, the position, the result and REFUSED and nothing
else; SET_PIXEL and PIXEL_EVENT change at most the byte Map gives (R150, R151, R153). -/
def Obligations.FramebufferWritersLeaveTheRest : Prop :=
  (∀ (i : Instr) (s t : State),
    i = .clear ∨ (∃ x y v, i = .setPixel x y v) ∨ (∃ x y c, i = .pixelEvent x y c) → exec i s = .next t →
    t = { s with fb := t.fb, pos := t.pos, result := t.result, refused := t.refused }) ∧
  (∀ (s t : State) (x y : BitVec 32) (i : Instr) (a : Nat),
    (∃ v, i = .setPixel x y v) ∨ (∃ c, i = .pixelEvent x y c) → exec i s = .next t →
    (∀ idx bit, pixelMap s.size s.rot x.toNat y.toNat = some (idx, bit) → a ≠ idx) → t.fb.read a = s.fb.read a)

/-- FLUSH at 0 and 180 degrees (R155). With every write answered Ok: one address sequence, then eight data writes of 128 bytes,
each followed by the address sequence of the next page, the eighth by that of page 0; the window is (0,0) to (128,64), the cursor
ends at (0,0) and the framebuffer is only read. With the k-th of these 35 writes answered Err: those before it and the failing one
are logged, the error is returned, the window is set, and the cursor is in the page row of the last crossing begun. -/
def Obligations.FlushSendsTheWholeFramebuffer : Prop :=
  ∀ s : State, s.mode = .graphics → s.Inv → s.rot = .deg0 ∨ s.rot = .deg180 →
    ∃ bytes : List Byte, bytes.length = 1024 ∧ (∀ i, i < 1024 → bytes[i]? = s.fb.read i) ∧
      (s.transport.grants 35 →
        exec .flush s =
          .next ((({ s with
              winStartCol := 0, winStartRow := 0, winEndCol := 128, winEndRow := 64, winValid := true,
              curCol := 0, curRow := 0 } : State).sent
            (addressEvents 0 0 ++
              (List.range 8).flatMap fun p =>
                .data ((bytes.drop (128 * p)).take 128) .ok :: addressEvents ((p + 1) % 8) 0)).returned (.ok .unit))) ∧
      (∀ (k : Nat) (e : TransportErr), k < 35 → s.transport.grants k → s.transport.answer k = .reply (.err e) →
        exec .flush s =
          .next ((({ s with
              winStartCol := 0, winStartRow := 0, winEndCol := 128, winEndRow := 64, winValid := true,
              curCol := 0, curRow := BitVec.ofNat 8 (8 * (k / 4 % 8)) } : State).sent
            (cutAt (flushEvents 128 bytes) k e)).returned (.err (.transport e))))

/-- FLUSH at 90 and 270 degrees, FLUSH_DIMS being ROTATED (R155, R236; log 11). With every write answered Ok: the window is (0,0)
to (64,128), and after eight data writes of 64 bytes the eighth crossing faults with PageOutOfRange(8), the cursor at (0,64). With
the k-th of these 32 writes answered Err: the error comes first (R207), those before it and the failing one are logged, the error
is returned, the window is set, and the cursor is in the page row of the last crossing begun. -/
def Obligations.FlushRotatedFaultsAtPageEight : Prop :=
  ∀ s : State, s.mode = .graphics → s.Inv → s.rot = .deg90 ∨ s.rot = .deg270 →
    ∃ bytes : List Byte, bytes.length = 1024 ∧ (∀ i, i < 1024 → bytes[i]? = s.fb.read i) ∧
      (s.transport.grants 32 →
        exec .flush s =
          .next { (({ s with
              winStartCol := 0, winStartRow := 0, winEndCol := 64, winEndRow := 128, winValid := true,
              curCol := 0, curRow := 64 } : State).sent
            (addressEvents 0 0 ++
              ((List.range 7).flatMap fun p =>
                .data ((bytes.drop (64 * p)).take 64) .ok :: addressEvents (p + 1) 0) ++
              [.data ((bytes.drop 448).take 64) .ok])) with
            fault := some (.pageOutOfRange 8) }) ∧
      (∀ (k : Nat) (e : TransportErr), k < 32 → s.transport.grants k → s.transport.answer k = .reply (.err e) →
        exec .flush s =
          .next ((({ s with
              winStartCol := 0, winStartRow := 0, winEndCol := 64, winEndRow := 128, winValid := true,
              curCol := 0, curRow := BitVec.ofNat 8 (8 * (k / 4)) } : State).sent
            (cutAt (flushEvents 64 bytes) k e)).returned (.err (.transport e))))

/-- With the parameter value UNROTATED, FLUSH's body at every rotation ends as the body with the source's value ends at 0
degrees, ROT apart (R152, R155). -/
def Obligations.FlushUnrotatedIsTheZeroDegreeCase : Prop :=
  ∀ (s : State) (rot : Rotation), s.mode = .graphics → s.Inv → s.transport.grants 35 →
    ∃ t : State, flushBody .rotated (s.setRot .deg0) = .done (t.setRot .deg0) ∧
      flushBody .unrotated (s.setRot rot) = .done (t.setRot rot)

/-- Pixel events are processed one at a time, in order: a list of them runs to its end, sends nothing, and leaves a pixel as the
last event for it says (R154, R153). -/
def Obligations.LastPixelEventWins : Prop :=
  ∀ (s : State) (es : List (BitVec 32 × BitVec 32 × Bool)), s.mode = .graphics → s.Inv →
    ∃ t, execAll (es.map fun e => .pixelEvent e.1 e.2.1 e.2.2) s = .next t ∧ t.log = s.log ∧ t.pos = s.pos + es.length ∧
      ∀ (before after : List (BitVec 32 × BitVec 32 × Bool)) (x y : BitVec 32) (c : Bool) (idx bit : Nat),
        es = before ++ (x, y, c) :: after → 0 ≤ x.toInt → 0 ≤ y.toInt →
        pixelMap s.size s.rot x.toNat y.toNat = some (idx, bit) →
        (∀ e ∈ after, ¬(e.1 = x ∧ e.2.1 = y)) →
        (t.fb.read idx).map (·.getLsbD bit) = some c

/-- Frame of FLUSH: whatever the answers, only the window and cursor registers, WIN_VALID, LOG, the transport's answers, the
position, the result, FAULT and REFUSED may change; no framebuffer byte changes (R155). -/
def Obligations.FlushOnlyReadsTheFramebuffer : Prop :=
  ∀ s t : State, exec .flush s = .next t →
    t = { s with
      winStartCol := t.winStartCol, winStartRow := t.winStartRow, winEndCol := t.winEndCol, winEndRow := t.winEndRow,
      winValid := t.winValid, curCol := t.curCol, curRow := t.curRow, log := t.log, transport := t.transport,
      pos := t.pos, result := t.result, fault := t.fault, refused := t.refused } ∧
    (∀ a, t.fb.read a = s.fb.read a)

/-- RESET in GRAPHICS (R156, R231): with every pin write answered Ok, high, wait 10, low, wait 10, high, wait 10, and PHASE becomes
RESET_NOT_INIT; the no-op pin always answers Ok. An error at the k-th pin write is logged and returned, the wait that would
follow and everything after it is skipped, and PHASE becomes UNRESET. Nothing else changes in any case. -/
def Obligations.ResetPulsesThePin : Prop :=
  ∀ s : State, s.mode = .graphics →
    (s.pin.grants 3 →
      exec (.reset .wired) s =
        .next (({ s with
          log := s.log ++ pulseEvents, pin := s.pin.skip 3, phase := .resetNotInit } : State).returned (.ok .unit))) ∧
    exec (.reset .noOp) s =
      .next (({ s with log := s.log ++ pulseEvents, phase := .resetNotInit } : State).returned (.ok .unit)) ∧
    (∀ (k : Nat) (e : PinErr), k < 3 → s.pin.grants k → s.pin.answer k = .reply (.err e) →
      exec (.reset .wired) s =
        .next (({ s with
          log := s.log ++ pulseEvents.take (2 * k) ++ [.pin (if k = 1 then .low else .high) (.err e)],
          pin := s.pin.skip (k + 1), phase := .unreset } : State).returned (.err (.pin e))))

/-- RELEASE, ENTER_GRAPHICS and UNWRAP complete with no event: the mode changes, the framebuffer is discarded, new or discarded;
a new framebuffer has 1024 bytes (R160, R161, R162). RELEASE and ENTER_GRAPHICS keep everything else (R160, R161). After UNWRAP
the registers of the session are gone (R162); that the model's fields keep their bits is its own choice (log 16). A step on the
drop of the surface also ends the session, with no event and nothing returned (R162; that the drop is an entry of the host's
program, and keeps those bits too, is the model's choice, logs 16 and 22). -/
def Obligations.ModeConversionsComplete : Prop :=
  ∀ s : State,
    (s.mode = .graphics → exec .release s = .next (({ s with mode := .raw, fb := [] } : State).returned (.ok .unit))) ∧
    (s.mode = .raw → ∃ m n, exec .enterGraphics s =
        .next (({ s with mode := .graphics, fb := m, fresh := n } : State).returned (.ok .unit)) ∧
      (∀ i, i < 1024 → (m.read i).isSome = true) ∧ (∀ i, 1024 ≤ i → m.read i = none)) ∧
    (s.mode ≠ .none → exec .unwrap s = .next (({ s with mode := .none, fb := [] } : State).returned (.ok .transport))) ∧
    (s.fault = none → s.refused = none → s.program[s.pos]? = some .dropSurface →
      step s = .next { s with mode := .none, fb := [], pos := s.pos + 1 })

/-- A lazy sequence of pixel events runs one event at a time, each an operation of its own, and asks for no length and no end
marker (R154, R80; that a sequence is an entry of the program, held as a queue and a cycle, is the model's choice, logs 20 and
24). Each step on a producer executes its next event and leaves the rest of it after that event; a producer that yields no more
stands for no operation. In GRAPHICS, a finite sequence runs to its end and does what its events do one after another. An
infinite one never returns: after any number of steps the state is not final, the next entry is still the producer, and so many
of its events have run. -/
def Obligations.PixelSequencesRunLazily : Prop :=
  ∀ (s : State) (src : PixelSource), s.fault = none → s.refused = none → s.program[s.pos]? = some (.pixelSource src) →
    (src.queue = [] → src.cycle = [] →
      step s = .next { s with program := s.program.take s.pos ++ s.program.drop (s.pos + 1) }) ∧
    (∀ (e : PixelEvent) (rest : PixelSource),
      src = ⟨e :: rest.queue, rest.cycle⟩ ∨ (src = ⟨[], e :: rest.queue⟩ ∧ rest.cycle = e :: rest.queue) →
      step s = exec (.pixelEvent e.1 e.2.1 e.2.2)
        { s with
          program := s.program.take s.pos ++
            [.operation (.pixelEvent e.1 e.2.1 e.2.2), .pixelSource rest] ++ s.program.drop (s.pos + 1) }) ∧
    (s.mode = .graphics → s.Inv → src.cycle = [] →
      ∃ t u, runSteps (src.queue.length + 1) s = .next t ∧ execAll (src.queue.map eventInstr) s = .next u ∧
        t = { u with program := t.program } ∧ t.pos = s.pos + src.queue.length ∧ t.log = s.log ∧
        t.program.drop t.pos = s.program.drop (s.pos + 1)) ∧
    (s.mode = .graphics → s.Inv → src.cycle ≠ [] →
      ∀ n, ∃ t u rest, runSteps n s = .next t ∧ execAll ((firstEvents n src).map eventInstr) s = .next u ∧
        t = { u with program := t.program } ∧ (firstEvents n src).length = n ∧ t.pos = s.pos + n ∧ t.log = s.log ∧
        t.program[t.pos]? = some (.pixelSource rest) ∧ rest.cycle = src.cycle ∧ t.final = false)

/-! ## The whole machine -/

/-- Every step keeps the invariant: the framebuffer exists exactly in GRAPHICS with exactly its 1024 indices, a valid window holds
its cursor (R26, R27), and every logged event is one the block may emit (R59, R70, R75, R214). -/
def Obligations.StepKeepsTheInvariant : Prop :=
  ∀ s t : State, s.Inv → step s = .next t → t.Inv

/-- LOG only grows, and every event a step adds is one the block may emit (R31, R59, R75). -/
def Obligations.LogOnlyGrowsByLegalEvents : Prop :=
  ∀ s t : State, step s = .next t → ∃ es, t.log = s.log ++ es ∧ ∀ e ∈ es, e.legal = true

/-- The first failing event ends an operation (R202, R203, R208): an operation that answers a next state either added only events
answered Ok, and returned Ok, faulted or was refused, or it added events answered Ok and then one answered Err(e), the last one,
and returned that error. -/
def Obligations.FirstErrorEndsTheOperation : Prop :=
  ∀ (i : Instr) (s t : State), s.fault = none → s.refused = none → exec i s = .next t →
    ∃ es, t.log = s.log ++ es ∧
      ((∀ e ∈ es, e.error = none) ∧ ((∃ v, t.result = some (.ok v)) ∨ t.fault ≠ none ∨ t.refused ≠ none) ∨
        ∃ fs e err, es = fs ++ [e] ∧ (∀ f ∈ fs, f.error = none) ∧ e.error = some err ∧ t.result = some (.err err) ∧
          t.fault = none ∧ t.refused = none)

/-- The first write of an operation that is not answered Ok cuts the run that the operation makes when every write is answered Ok
(R202, R208, R242): the events before it are logged as in that run; if it is answered Err(e), it is logged with the error, which
is returned, and nothing is recorded in FAULT or REFUSED; if it is never answered, the operation never returns (log 7). RESET
writes to the pin, not to the transport, and is stated in `ResetPulsesThePin` and `SilentTransportStopsTheOperation`. -/
def Obligations.FirstBadAnswerCutsTheRun : Prop :=
  ∀ (i : Instr) (s t : State) (es : List Event) (k : Nat), (∀ pin, i ≠ .reset pin) → s.fault = none → s.refused = none →
    exec i s.granted = .next t → t.log = s.log ++ es → k < es.length → s.transport.grants k →
    (∀ e, s.transport.answer k = .reply (.err e) →
      ∃ u, exec i s = .next u ∧ u.log = s.log ++ cutAt es k e ∧ u.result = some (.err (.transport e)) ∧
        u.transport = s.transport.skip (k + 1) ∧ u.fault = none ∧ u.refused = none ∧ u.pos = s.pos + 1) ∧
    (s.transport.answer k = .never → exec i s = .fault .agentSilent)

/-- The framebuffer is copied out only by FLUSH (R65): for every other instruction, a session with another framebuffer takes the
same step, the framebuffer apart; no event, register or result depends on its bytes. -/
def Obligations.FramebufferIsSeenOnlyThroughFlush : Prop :=
  ∀ (i : Instr) (s t : State) (m : Memory), i ≠ .flush → s.Inv → s.mode = .graphics → m.covers 1024 →
    exec i s = .next t → ∃ n, exec i { s with fb := m } = .next { t with fb := n }

/-- Which instructions can change which registers: SIZE only CONNECT; ROT only CONNECT and SET_ROTATION; MODE only CONNECT, RELEASE,
ENTER_GRAPHICS and UNWRAP; the window only SET_DRAW_AREA, FLUSH and CONNECT; FB only its writers and the mode conversions (R20,
R22, R23, R27, R212, R216). -/
def Obligations.OnlyTheNamedInstructionsWriteARegister : Prop :=
  ∀ (i : Instr) (s t : State), exec i s = .next t →
    (t.size ≠ s.size → ∃ cfg, i = .connect cfg) ∧
    (t.rot ≠ s.rot → (∃ cfg, i = .connect cfg) ∨ ∃ rot, i = .setRotation rot) ∧
    (t.mode ≠ s.mode → (∃ cfg, i = .connect cfg) ∨ i = .release ∨ i = .enterGraphics ∨ i = .unwrap) ∧
    (t.winStartCol ≠ s.winStartCol ∨ t.winStartRow ≠ s.winStartRow ∨ t.winEndCol ≠ s.winEndCol ∨
        t.winEndRow ≠ s.winEndRow ∨ t.winValid ≠ s.winValid →
      (∃ cfg, i = .connect cfg) ∨ (∃ a b c d, i = .setDrawArea a b c d) ∨ i = .flush) ∧
    (t.fb ≠ s.fb →
      (∃ cfg, i = .connect cfg) ∨ i = .clear ∨ (∃ x y v, i = .setPixel x y v) ∨ (∃ x y c, i = .pixelEvent x y c) ∨
        i = .release ∨ i = .enterGraphics ∨ i = .unwrap)

/-- PHASE is ghost state: two states that differ only in PHASE do the same, and still differ at most in PHASE (R29). -/
def Obligations.PhaseInfluencesNothing : Prop :=
  ∀ (s : State) (p : Phase),
    (∀ t, step s = .next t → ∃ q, step { s with phase := p } = .next { t with phase := q }) ∧
    (∀ f, step s = .fault f → step { s with phase := p } = .fault f) ∧
    (∀ r, step s = .refused r → step { s with phase := p } = .refused r)

/-- The PHASE table (R159): every other operation keeps PHASE. -/
def Obligations.PhaseMovesByTheTable : Prop :=
  ∀ (i : Instr) (s t : State), exec i s = .next t → s.refused = none → t.refused = none →
    (∀ cfg, i = .connect cfg → t.phase = .unreset) ∧
    (∀ pin, i = .reset pin →
      (t.result = some (.ok .unit) → t.phase = .resetNotInit) ∧ (t.result ≠ some (.ok .unit) → t.phase = .unreset)) ∧
    (i = .init ∨ i = .initRaw →
      (t.result = some (.ok .unit) → t.phase = if s.phase = .unreset then .unreset else .ready) ∧
      (t.result ≠ some (.ok .unit) → t.phase = .unreset)) ∧
    ((∀ cfg, i ≠ .connect cfg) → (∀ pin, i ≠ .reset pin) → i ≠ .init → i ≠ .initRaw → t.phase = s.phase)

/-- The outcome codes (R201). -/
def Obligations.OutcomeCodesAreTheSpecs : Prop :=
  (∀ e, (OpError.transport e).code = 0x01) ∧ (∀ e, (OpError.pin e).code = 0x02) ∧
  (∀ p, (FaultReason.pageOutOfRange p).code = 0x10) ∧ (∀ a b c d, (FaultReason.illegalWindow a b c d).code = 0x11) ∧
  FaultReason.windowUnset.code = 0x12 ∧ (∀ op m, (RefusalReason.modeRefused op m).code = 0x20) ∧
  (∀ c, (RefusalReason.unknownOp c).code = 0x21)
end

