-- ==== Sys2Proof/Laws/Decode.lean ====
section
/-! SUPPORT. Laws/Decode.lean: each operand code is read back from its own byte or bytes, and each operation from its code. -/

namespace Sys2Proof

@[simp] theorem sizeOf_code (z : SizeCode) : sizeOf? z.code = some z := by cases z; rfl

@[simp] theorem rotationOf_code (z : Rotation) : rotationOf? z.code = some z := by cases z <;> rfl

@[simp] theorem configOf_code (c : PanelConfig) : configOf? c.size.code c.rot.code = some c := by
  simp [configOf?]

@[simp] theorem pinOf_code (z : PinSel) : pinOf? z.code = some z := by cases z <;> rfl

@[simp] theorem boolOf_boolByte (z : Bool) : boolOf? (boolByte z) = some z := by cases z <;> rfl

@[simp] theorem hostOpOf_code (op : HostOp) : hostOpOf op.code = some op := by cases op <;> rfl

/-- A code that no listed operation has names none (R78). -/
theorem hostOpOf_none {code : Byte} (h : ∀ op : HostOp, op.code ≠ code) : hostOpOf code = none := by
  simp only [hostOpOf, List.find?_eq_none]
  intro op _
  simpa using h op

/-- A 32-bit operand is read back from its four bytes (log 2). -/
@[simp] theorem word32_bytes (v : BitVec 32) :
    word32 (v.extractLsb' 0 8) (v.extractLsb' 8 8) (v.extractLsb' 16 8) (v.extractLsb' 24 8) = v := by
  apply BitVec.eq_of_getLsbD_eq
  intro i hi
  unfold word32
  simp only [BitVec.getLsbD_append, BitVec.getLsbD_extractLsb']
  by_cases h1 : i < 8
  · simp [h1]
  by_cases h2 : i < 16
  · have a1 : i - 8 < 8 := by omega
    simp only [h1, decide_false, a1, decide_true, Bool.true_and, if_false, if_true]
    congr 1; omega
  by_cases h3 : i < 24
  · have a1 : ¬i - 8 < 8 := by omega
    have a2 : i - 8 - 8 < 8 := by omega
    simp only [h1, a1, a2, decide_false, decide_true, Bool.true_and, if_false, if_true]
    congr 1; omega
  · have a1 : ¬i - 8 < 8 := by omega
    have a2 : ¬i - 8 - 8 < 8 := by omega
    have a3 : i - 8 - 8 - 8 < 8 := by omega
    simp only [h1, a1, a2, a3, decide_false, decide_true, Bool.true_and, if_false]
    congr 1; omega

end Sys2Proof
end

