-- ==== Sys2Proof/Laws/State.lean ====
section
/-! SUPPORT. Laws/State.lean: what each update of State leaves in each field, so that no proof unfolds an update. -/

namespace Sys2Proof.Machine

variable (s : State)

/-! ### record -/

@[simp] theorem State.record_size (e : Event) : (s.record e).size = s.size := rfl
@[simp] theorem State.record_rot (e : Event) : (s.record e).rot = s.rot := rfl
@[simp] theorem State.record_winStartCol (e : Event) : (s.record e).winStartCol = s.winStartCol := rfl
@[simp] theorem State.record_winStartRow (e : Event) : (s.record e).winStartRow = s.winStartRow := rfl
@[simp] theorem State.record_winEndCol (e : Event) : (s.record e).winEndCol = s.winEndCol := rfl
@[simp] theorem State.record_winEndRow (e : Event) : (s.record e).winEndRow = s.winEndRow := rfl
@[simp] theorem State.record_winValid (e : Event) : (s.record e).winValid = s.winValid := rfl
@[simp] theorem State.record_curCol (e : Event) : (s.record e).curCol = s.curCol := rfl
@[simp] theorem State.record_curRow (e : Event) : (s.record e).curRow = s.curRow := rfl
@[simp] theorem State.record_fb (e : Event) : (s.record e).fb = s.fb := rfl
@[simp] theorem State.record_mode (e : Event) : (s.record e).mode = s.mode := rfl
@[simp] theorem State.record_phase (e : Event) : (s.record e).phase = s.phase := rfl
@[simp] theorem State.record_fault (e : Event) : (s.record e).fault = s.fault := rfl
@[simp] theorem State.record_refused (e : Event) : (s.record e).refused = s.refused := rfl
@[simp] theorem State.record_log (e : Event) : (s.record e).log = s.log ++ [e] := rfl
@[simp] theorem State.record_pos (e : Event) : (s.record e).pos = s.pos := rfl
@[simp] theorem State.record_program (e : Event) : (s.record e).program = s.program := rfl
@[simp] theorem State.record_result (e : Event) : (s.record e).result = s.result := rfl
@[simp] theorem State.record_transport (e : Event) : (s.record e).transport = s.transport := rfl
@[simp] theorem State.record_pin (e : Event) : (s.record e).pin = s.pin := rfl
@[simp] theorem State.record_fresh (e : Event) : (s.record e).fresh = s.fresh := rfl

/-! ### setTransport -/

@[simp] theorem State.setTransport_size (a : Agent TransportErr) : (s.setTransport a).size = s.size := rfl
@[simp] theorem State.setTransport_rot (a : Agent TransportErr) : (s.setTransport a).rot = s.rot := rfl
@[simp] theorem State.setTransport_winStartCol (a : Agent TransportErr) : (s.setTransport a).winStartCol = s.winStartCol := rfl
@[simp] theorem State.setTransport_winStartRow (a : Agent TransportErr) : (s.setTransport a).winStartRow = s.winStartRow := rfl
@[simp] theorem State.setTransport_winEndCol (a : Agent TransportErr) : (s.setTransport a).winEndCol = s.winEndCol := rfl
@[simp] theorem State.setTransport_winEndRow (a : Agent TransportErr) : (s.setTransport a).winEndRow = s.winEndRow := rfl
@[simp] theorem State.setTransport_winValid (a : Agent TransportErr) : (s.setTransport a).winValid = s.winValid := rfl
@[simp] theorem State.setTransport_curCol (a : Agent TransportErr) : (s.setTransport a).curCol = s.curCol := rfl
@[simp] theorem State.setTransport_curRow (a : Agent TransportErr) : (s.setTransport a).curRow = s.curRow := rfl
@[simp] theorem State.setTransport_fb (a : Agent TransportErr) : (s.setTransport a).fb = s.fb := rfl
@[simp] theorem State.setTransport_mode (a : Agent TransportErr) : (s.setTransport a).mode = s.mode := rfl
@[simp] theorem State.setTransport_phase (a : Agent TransportErr) : (s.setTransport a).phase = s.phase := rfl
@[simp] theorem State.setTransport_fault (a : Agent TransportErr) : (s.setTransport a).fault = s.fault := rfl
@[simp] theorem State.setTransport_refused (a : Agent TransportErr) : (s.setTransport a).refused = s.refused := rfl
@[simp] theorem State.setTransport_log (a : Agent TransportErr) : (s.setTransport a).log = s.log := rfl
@[simp] theorem State.setTransport_pos (a : Agent TransportErr) : (s.setTransport a).pos = s.pos := rfl
@[simp] theorem State.setTransport_program (a : Agent TransportErr) : (s.setTransport a).program = s.program := rfl
@[simp] theorem State.setTransport_result (a : Agent TransportErr) : (s.setTransport a).result = s.result := rfl
@[simp] theorem State.setTransport_transport (a : Agent TransportErr) : (s.setTransport a).transport = a := rfl
@[simp] theorem State.setTransport_pin (a : Agent TransportErr) : (s.setTransport a).pin = s.pin := rfl
@[simp] theorem State.setTransport_fresh (a : Agent TransportErr) : (s.setTransport a).fresh = s.fresh := rfl

/-! ### setPin -/

@[simp] theorem State.setPin_size (a : Agent PinErr) : (s.setPin a).size = s.size := rfl
@[simp] theorem State.setPin_rot (a : Agent PinErr) : (s.setPin a).rot = s.rot := rfl
@[simp] theorem State.setPin_winStartCol (a : Agent PinErr) : (s.setPin a).winStartCol = s.winStartCol := rfl
@[simp] theorem State.setPin_winStartRow (a : Agent PinErr) : (s.setPin a).winStartRow = s.winStartRow := rfl
@[simp] theorem State.setPin_winEndCol (a : Agent PinErr) : (s.setPin a).winEndCol = s.winEndCol := rfl
@[simp] theorem State.setPin_winEndRow (a : Agent PinErr) : (s.setPin a).winEndRow = s.winEndRow := rfl
@[simp] theorem State.setPin_winValid (a : Agent PinErr) : (s.setPin a).winValid = s.winValid := rfl
@[simp] theorem State.setPin_curCol (a : Agent PinErr) : (s.setPin a).curCol = s.curCol := rfl
@[simp] theorem State.setPin_curRow (a : Agent PinErr) : (s.setPin a).curRow = s.curRow := rfl
@[simp] theorem State.setPin_fb (a : Agent PinErr) : (s.setPin a).fb = s.fb := rfl
@[simp] theorem State.setPin_mode (a : Agent PinErr) : (s.setPin a).mode = s.mode := rfl
@[simp] theorem State.setPin_phase (a : Agent PinErr) : (s.setPin a).phase = s.phase := rfl
@[simp] theorem State.setPin_fault (a : Agent PinErr) : (s.setPin a).fault = s.fault := rfl
@[simp] theorem State.setPin_refused (a : Agent PinErr) : (s.setPin a).refused = s.refused := rfl
@[simp] theorem State.setPin_log (a : Agent PinErr) : (s.setPin a).log = s.log := rfl
@[simp] theorem State.setPin_pos (a : Agent PinErr) : (s.setPin a).pos = s.pos := rfl
@[simp] theorem State.setPin_program (a : Agent PinErr) : (s.setPin a).program = s.program := rfl
@[simp] theorem State.setPin_result (a : Agent PinErr) : (s.setPin a).result = s.result := rfl
@[simp] theorem State.setPin_transport (a : Agent PinErr) : (s.setPin a).transport = s.transport := rfl
@[simp] theorem State.setPin_pin (a : Agent PinErr) : (s.setPin a).pin = a := rfl
@[simp] theorem State.setPin_fresh (a : Agent PinErr) : (s.setPin a).fresh = s.fresh := rfl

/-! ### setWindow -/

@[simp] theorem State.setWindow_size (sc sr ec er : Byte) : (s.setWindow sc sr ec er).size = s.size := rfl
@[simp] theorem State.setWindow_rot (sc sr ec er : Byte) : (s.setWindow sc sr ec er).rot = s.rot := rfl
@[simp] theorem State.setWindow_winStartCol (sc sr ec er : Byte) : (s.setWindow sc sr ec er).winStartCol = sc := rfl
@[simp] theorem State.setWindow_winStartRow (sc sr ec er : Byte) : (s.setWindow sc sr ec er).winStartRow = sr := rfl
@[simp] theorem State.setWindow_winEndCol (sc sr ec er : Byte) : (s.setWindow sc sr ec er).winEndCol = ec := rfl
@[simp] theorem State.setWindow_winEndRow (sc sr ec er : Byte) : (s.setWindow sc sr ec er).winEndRow = er := rfl
@[simp] theorem State.setWindow_winValid (sc sr ec er : Byte) : (s.setWindow sc sr ec er).winValid = true := rfl
@[simp] theorem State.setWindow_curCol (sc sr ec er : Byte) : (s.setWindow sc sr ec er).curCol = s.curCol := rfl
@[simp] theorem State.setWindow_curRow (sc sr ec er : Byte) : (s.setWindow sc sr ec er).curRow = s.curRow := rfl
@[simp] theorem State.setWindow_fb (sc sr ec er : Byte) : (s.setWindow sc sr ec er).fb = s.fb := rfl
@[simp] theorem State.setWindow_mode (sc sr ec er : Byte) : (s.setWindow sc sr ec er).mode = s.mode := rfl
@[simp] theorem State.setWindow_phase (sc sr ec er : Byte) : (s.setWindow sc sr ec er).phase = s.phase := rfl
@[simp] theorem State.setWindow_fault (sc sr ec er : Byte) : (s.setWindow sc sr ec er).fault = s.fault := rfl
@[simp] theorem State.setWindow_refused (sc sr ec er : Byte) : (s.setWindow sc sr ec er).refused = s.refused := rfl
@[simp] theorem State.setWindow_log (sc sr ec er : Byte) : (s.setWindow sc sr ec er).log = s.log := rfl
@[simp] theorem State.setWindow_pos (sc sr ec er : Byte) : (s.setWindow sc sr ec er).pos = s.pos := rfl
@[simp] theorem State.setWindow_program (sc sr ec er : Byte) : (s.setWindow sc sr ec er).program = s.program := rfl
@[simp] theorem State.setWindow_result (sc sr ec er : Byte) : (s.setWindow sc sr ec er).result = s.result := rfl
@[simp] theorem State.setWindow_transport (sc sr ec er : Byte) : (s.setWindow sc sr ec er).transport = s.transport := rfl
@[simp] theorem State.setWindow_pin (sc sr ec er : Byte) : (s.setWindow sc sr ec er).pin = s.pin := rfl
@[simp] theorem State.setWindow_fresh (sc sr ec er : Byte) : (s.setWindow sc sr ec er).fresh = s.fresh := rfl

/-! ### setCursor -/

@[simp] theorem State.setCursor_size (c r : Byte) : (s.setCursor c r).size = s.size := rfl
@[simp] theorem State.setCursor_rot (c r : Byte) : (s.setCursor c r).rot = s.rot := rfl
@[simp] theorem State.setCursor_winStartCol (c r : Byte) : (s.setCursor c r).winStartCol = s.winStartCol := rfl
@[simp] theorem State.setCursor_winStartRow (c r : Byte) : (s.setCursor c r).winStartRow = s.winStartRow := rfl
@[simp] theorem State.setCursor_winEndCol (c r : Byte) : (s.setCursor c r).winEndCol = s.winEndCol := rfl
@[simp] theorem State.setCursor_winEndRow (c r : Byte) : (s.setCursor c r).winEndRow = s.winEndRow := rfl
@[simp] theorem State.setCursor_winValid (c r : Byte) : (s.setCursor c r).winValid = s.winValid := rfl
@[simp] theorem State.setCursor_curCol (c r : Byte) : (s.setCursor c r).curCol = c := rfl
@[simp] theorem State.setCursor_curRow (c r : Byte) : (s.setCursor c r).curRow = r := rfl
@[simp] theorem State.setCursor_fb (c r : Byte) : (s.setCursor c r).fb = s.fb := rfl
@[simp] theorem State.setCursor_mode (c r : Byte) : (s.setCursor c r).mode = s.mode := rfl
@[simp] theorem State.setCursor_phase (c r : Byte) : (s.setCursor c r).phase = s.phase := rfl
@[simp] theorem State.setCursor_fault (c r : Byte) : (s.setCursor c r).fault = s.fault := rfl
@[simp] theorem State.setCursor_refused (c r : Byte) : (s.setCursor c r).refused = s.refused := rfl
@[simp] theorem State.setCursor_log (c r : Byte) : (s.setCursor c r).log = s.log := rfl
@[simp] theorem State.setCursor_pos (c r : Byte) : (s.setCursor c r).pos = s.pos := rfl
@[simp] theorem State.setCursor_program (c r : Byte) : (s.setCursor c r).program = s.program := rfl
@[simp] theorem State.setCursor_result (c r : Byte) : (s.setCursor c r).result = s.result := rfl
@[simp] theorem State.setCursor_transport (c r : Byte) : (s.setCursor c r).transport = s.transport := rfl
@[simp] theorem State.setCursor_pin (c r : Byte) : (s.setCursor c r).pin = s.pin := rfl
@[simp] theorem State.setCursor_fresh (c r : Byte) : (s.setCursor c r).fresh = s.fresh := rfl

/-! ### setFb -/

@[simp] theorem State.setFb_size (m : Memory) : (s.setFb m).size = s.size := rfl
@[simp] theorem State.setFb_rot (m : Memory) : (s.setFb m).rot = s.rot := rfl
@[simp] theorem State.setFb_winStartCol (m : Memory) : (s.setFb m).winStartCol = s.winStartCol := rfl
@[simp] theorem State.setFb_winStartRow (m : Memory) : (s.setFb m).winStartRow = s.winStartRow := rfl
@[simp] theorem State.setFb_winEndCol (m : Memory) : (s.setFb m).winEndCol = s.winEndCol := rfl
@[simp] theorem State.setFb_winEndRow (m : Memory) : (s.setFb m).winEndRow = s.winEndRow := rfl
@[simp] theorem State.setFb_winValid (m : Memory) : (s.setFb m).winValid = s.winValid := rfl
@[simp] theorem State.setFb_curCol (m : Memory) : (s.setFb m).curCol = s.curCol := rfl
@[simp] theorem State.setFb_curRow (m : Memory) : (s.setFb m).curRow = s.curRow := rfl
@[simp] theorem State.setFb_fb (m : Memory) : (s.setFb m).fb = m := rfl
@[simp] theorem State.setFb_mode (m : Memory) : (s.setFb m).mode = s.mode := rfl
@[simp] theorem State.setFb_phase (m : Memory) : (s.setFb m).phase = s.phase := rfl
@[simp] theorem State.setFb_fault (m : Memory) : (s.setFb m).fault = s.fault := rfl
@[simp] theorem State.setFb_refused (m : Memory) : (s.setFb m).refused = s.refused := rfl
@[simp] theorem State.setFb_log (m : Memory) : (s.setFb m).log = s.log := rfl
@[simp] theorem State.setFb_pos (m : Memory) : (s.setFb m).pos = s.pos := rfl
@[simp] theorem State.setFb_program (m : Memory) : (s.setFb m).program = s.program := rfl
@[simp] theorem State.setFb_result (m : Memory) : (s.setFb m).result = s.result := rfl
@[simp] theorem State.setFb_transport (m : Memory) : (s.setFb m).transport = s.transport := rfl
@[simp] theorem State.setFb_pin (m : Memory) : (s.setFb m).pin = s.pin := rfl
@[simp] theorem State.setFb_fresh (m : Memory) : (s.setFb m).fresh = s.fresh := rfl

/-! ### setRot -/

@[simp] theorem State.setRot_size (r : Rotation) : (s.setRot r).size = s.size := rfl
@[simp] theorem State.setRot_rot (r : Rotation) : (s.setRot r).rot = r := rfl
@[simp] theorem State.setRot_winStartCol (r : Rotation) : (s.setRot r).winStartCol = s.winStartCol := rfl
@[simp] theorem State.setRot_winStartRow (r : Rotation) : (s.setRot r).winStartRow = s.winStartRow := rfl
@[simp] theorem State.setRot_winEndCol (r : Rotation) : (s.setRot r).winEndCol = s.winEndCol := rfl
@[simp] theorem State.setRot_winEndRow (r : Rotation) : (s.setRot r).winEndRow = s.winEndRow := rfl
@[simp] theorem State.setRot_winValid (r : Rotation) : (s.setRot r).winValid = s.winValid := rfl
@[simp] theorem State.setRot_curCol (r : Rotation) : (s.setRot r).curCol = s.curCol := rfl
@[simp] theorem State.setRot_curRow (r : Rotation) : (s.setRot r).curRow = s.curRow := rfl
@[simp] theorem State.setRot_fb (r : Rotation) : (s.setRot r).fb = s.fb := rfl
@[simp] theorem State.setRot_mode (r : Rotation) : (s.setRot r).mode = s.mode := rfl
@[simp] theorem State.setRot_phase (r : Rotation) : (s.setRot r).phase = s.phase := rfl
@[simp] theorem State.setRot_fault (r : Rotation) : (s.setRot r).fault = s.fault := rfl
@[simp] theorem State.setRot_refused (r : Rotation) : (s.setRot r).refused = s.refused := rfl
@[simp] theorem State.setRot_log (r : Rotation) : (s.setRot r).log = s.log := rfl
@[simp] theorem State.setRot_pos (r : Rotation) : (s.setRot r).pos = s.pos := rfl
@[simp] theorem State.setRot_program (r : Rotation) : (s.setRot r).program = s.program := rfl
@[simp] theorem State.setRot_result (r : Rotation) : (s.setRot r).result = s.result := rfl
@[simp] theorem State.setRot_transport (r : Rotation) : (s.setRot r).transport = s.transport := rfl
@[simp] theorem State.setRot_pin (r : Rotation) : (s.setRot r).pin = s.pin := rfl
@[simp] theorem State.setRot_fresh (r : Rotation) : (s.setRot r).fresh = s.fresh := rfl

/-! ### setMode -/

@[simp] theorem State.setMode_size (m : Mode) : (s.setMode m).size = s.size := rfl
@[simp] theorem State.setMode_rot (m : Mode) : (s.setMode m).rot = s.rot := rfl
@[simp] theorem State.setMode_winStartCol (m : Mode) : (s.setMode m).winStartCol = s.winStartCol := rfl
@[simp] theorem State.setMode_winStartRow (m : Mode) : (s.setMode m).winStartRow = s.winStartRow := rfl
@[simp] theorem State.setMode_winEndCol (m : Mode) : (s.setMode m).winEndCol = s.winEndCol := rfl
@[simp] theorem State.setMode_winEndRow (m : Mode) : (s.setMode m).winEndRow = s.winEndRow := rfl
@[simp] theorem State.setMode_winValid (m : Mode) : (s.setMode m).winValid = s.winValid := rfl
@[simp] theorem State.setMode_curCol (m : Mode) : (s.setMode m).curCol = s.curCol := rfl
@[simp] theorem State.setMode_curRow (m : Mode) : (s.setMode m).curRow = s.curRow := rfl
@[simp] theorem State.setMode_fb (m : Mode) : (s.setMode m).fb = s.fb := rfl
@[simp] theorem State.setMode_mode (m : Mode) : (s.setMode m).mode = m := rfl
@[simp] theorem State.setMode_phase (m : Mode) : (s.setMode m).phase = s.phase := rfl
@[simp] theorem State.setMode_fault (m : Mode) : (s.setMode m).fault = s.fault := rfl
@[simp] theorem State.setMode_refused (m : Mode) : (s.setMode m).refused = s.refused := rfl
@[simp] theorem State.setMode_log (m : Mode) : (s.setMode m).log = s.log := rfl
@[simp] theorem State.setMode_pos (m : Mode) : (s.setMode m).pos = s.pos := rfl
@[simp] theorem State.setMode_program (m : Mode) : (s.setMode m).program = s.program := rfl
@[simp] theorem State.setMode_result (m : Mode) : (s.setMode m).result = s.result := rfl
@[simp] theorem State.setMode_transport (m : Mode) : (s.setMode m).transport = s.transport := rfl
@[simp] theorem State.setMode_pin (m : Mode) : (s.setMode m).pin = s.pin := rfl
@[simp] theorem State.setMode_fresh (m : Mode) : (s.setMode m).fresh = s.fresh := rfl

/-! ### setPhase -/

@[simp] theorem State.setPhase_size (p : Phase) : (s.setPhase p).size = s.size := rfl
@[simp] theorem State.setPhase_rot (p : Phase) : (s.setPhase p).rot = s.rot := rfl
@[simp] theorem State.setPhase_winStartCol (p : Phase) : (s.setPhase p).winStartCol = s.winStartCol := rfl
@[simp] theorem State.setPhase_winStartRow (p : Phase) : (s.setPhase p).winStartRow = s.winStartRow := rfl
@[simp] theorem State.setPhase_winEndCol (p : Phase) : (s.setPhase p).winEndCol = s.winEndCol := rfl
@[simp] theorem State.setPhase_winEndRow (p : Phase) : (s.setPhase p).winEndRow = s.winEndRow := rfl
@[simp] theorem State.setPhase_winValid (p : Phase) : (s.setPhase p).winValid = s.winValid := rfl
@[simp] theorem State.setPhase_curCol (p : Phase) : (s.setPhase p).curCol = s.curCol := rfl
@[simp] theorem State.setPhase_curRow (p : Phase) : (s.setPhase p).curRow = s.curRow := rfl
@[simp] theorem State.setPhase_fb (p : Phase) : (s.setPhase p).fb = s.fb := rfl
@[simp] theorem State.setPhase_mode (p : Phase) : (s.setPhase p).mode = s.mode := rfl
@[simp] theorem State.setPhase_phase (p : Phase) : (s.setPhase p).phase = p := rfl
@[simp] theorem State.setPhase_fault (p : Phase) : (s.setPhase p).fault = s.fault := rfl
@[simp] theorem State.setPhase_refused (p : Phase) : (s.setPhase p).refused = s.refused := rfl
@[simp] theorem State.setPhase_log (p : Phase) : (s.setPhase p).log = s.log := rfl
@[simp] theorem State.setPhase_pos (p : Phase) : (s.setPhase p).pos = s.pos := rfl
@[simp] theorem State.setPhase_program (p : Phase) : (s.setPhase p).program = s.program := rfl
@[simp] theorem State.setPhase_result (p : Phase) : (s.setPhase p).result = s.result := rfl
@[simp] theorem State.setPhase_transport (p : Phase) : (s.setPhase p).transport = s.transport := rfl
@[simp] theorem State.setPhase_pin (p : Phase) : (s.setPhase p).pin = s.pin := rfl
@[simp] theorem State.setPhase_fresh (p : Phase) : (s.setPhase p).fresh = s.fresh := rfl

/-! ### drawFree -/

@[simp] theorem State.drawFree_size (n : Nat) : (s.drawFree n).size = s.size := rfl
@[simp] theorem State.drawFree_rot (n : Nat) : (s.drawFree n).rot = s.rot := rfl
@[simp] theorem State.drawFree_winStartCol (n : Nat) : (s.drawFree n).winStartCol = s.winStartCol := rfl
@[simp] theorem State.drawFree_winStartRow (n : Nat) : (s.drawFree n).winStartRow = s.winStartRow := rfl
@[simp] theorem State.drawFree_winEndCol (n : Nat) : (s.drawFree n).winEndCol = s.winEndCol := rfl
@[simp] theorem State.drawFree_winEndRow (n : Nat) : (s.drawFree n).winEndRow = s.winEndRow := rfl
@[simp] theorem State.drawFree_winValid (n : Nat) : (s.drawFree n).winValid = s.winValid := rfl
@[simp] theorem State.drawFree_curCol (n : Nat) : (s.drawFree n).curCol = s.curCol := rfl
@[simp] theorem State.drawFree_curRow (n : Nat) : (s.drawFree n).curRow = s.curRow := rfl
@[simp] theorem State.drawFree_fb (n : Nat) : (s.drawFree n).fb = s.fb := rfl
@[simp] theorem State.drawFree_mode (n : Nat) : (s.drawFree n).mode = s.mode := rfl
@[simp] theorem State.drawFree_phase (n : Nat) : (s.drawFree n).phase = s.phase := rfl
@[simp] theorem State.drawFree_fault (n : Nat) : (s.drawFree n).fault = s.fault := rfl
@[simp] theorem State.drawFree_refused (n : Nat) : (s.drawFree n).refused = s.refused := rfl
@[simp] theorem State.drawFree_log (n : Nat) : (s.drawFree n).log = s.log := rfl
@[simp] theorem State.drawFree_pos (n : Nat) : (s.drawFree n).pos = s.pos := rfl
@[simp] theorem State.drawFree_program (n : Nat) : (s.drawFree n).program = s.program := rfl
@[simp] theorem State.drawFree_result (n : Nat) : (s.drawFree n).result = s.result := rfl
@[simp] theorem State.drawFree_transport (n : Nat) : (s.drawFree n).transport = s.transport := rfl
@[simp] theorem State.drawFree_pin (n : Nat) : (s.drawFree n).pin = s.pin := rfl
@[simp] theorem State.drawFree_fresh (n : Nat) : (s.drawFree n).fresh = s.fresh + n := rfl

/-! ### returned -/

@[simp] theorem State.returned_size (r : Result) : (s.returned r).size = s.size := rfl
@[simp] theorem State.returned_rot (r : Result) : (s.returned r).rot = s.rot := rfl
@[simp] theorem State.returned_winStartCol (r : Result) : (s.returned r).winStartCol = s.winStartCol := rfl
@[simp] theorem State.returned_winStartRow (r : Result) : (s.returned r).winStartRow = s.winStartRow := rfl
@[simp] theorem State.returned_winEndCol (r : Result) : (s.returned r).winEndCol = s.winEndCol := rfl
@[simp] theorem State.returned_winEndRow (r : Result) : (s.returned r).winEndRow = s.winEndRow := rfl
@[simp] theorem State.returned_winValid (r : Result) : (s.returned r).winValid = s.winValid := rfl
@[simp] theorem State.returned_curCol (r : Result) : (s.returned r).curCol = s.curCol := rfl
@[simp] theorem State.returned_curRow (r : Result) : (s.returned r).curRow = s.curRow := rfl
@[simp] theorem State.returned_fb (r : Result) : (s.returned r).fb = s.fb := rfl
@[simp] theorem State.returned_mode (r : Result) : (s.returned r).mode = s.mode := rfl
@[simp] theorem State.returned_phase (r : Result) : (s.returned r).phase = s.phase := rfl
@[simp] theorem State.returned_fault (r : Result) : (s.returned r).fault = s.fault := rfl
@[simp] theorem State.returned_refused (r : Result) : (s.returned r).refused = s.refused := rfl
@[simp] theorem State.returned_log (r : Result) : (s.returned r).log = s.log := rfl
@[simp] theorem State.returned_pos (r : Result) : (s.returned r).pos = s.pos + 1 := rfl
@[simp] theorem State.returned_program (r : Result) : (s.returned r).program = s.program := rfl
@[simp] theorem State.returned_result (r : Result) : (s.returned r).result = some r := rfl
@[simp] theorem State.returned_transport (r : Result) : (s.returned r).transport = s.transport := rfl
@[simp] theorem State.returned_pin (r : Result) : (s.returned r).pin = s.pin := rfl
@[simp] theorem State.returned_fresh (r : Result) : (s.returned r).fresh = s.fresh := rfl

/-! ### endSession -/

@[simp] theorem State.endSession_size : (s.endSession).size = s.size := rfl
@[simp] theorem State.endSession_rot : (s.endSession).rot = s.rot := rfl
@[simp] theorem State.endSession_winStartCol : (s.endSession).winStartCol = s.winStartCol := rfl
@[simp] theorem State.endSession_winStartRow : (s.endSession).winStartRow = s.winStartRow := rfl
@[simp] theorem State.endSession_winEndCol : (s.endSession).winEndCol = s.winEndCol := rfl
@[simp] theorem State.endSession_winEndRow : (s.endSession).winEndRow = s.winEndRow := rfl
@[simp] theorem State.endSession_winValid : (s.endSession).winValid = s.winValid := rfl
@[simp] theorem State.endSession_curCol : (s.endSession).curCol = s.curCol := rfl
@[simp] theorem State.endSession_curRow : (s.endSession).curRow = s.curRow := rfl
@[simp] theorem State.endSession_fb : (s.endSession).fb = [] := rfl
@[simp] theorem State.endSession_mode : (s.endSession).mode = .none := rfl
@[simp] theorem State.endSession_phase : (s.endSession).phase = s.phase := rfl
@[simp] theorem State.endSession_fault : (s.endSession).fault = s.fault := rfl
@[simp] theorem State.endSession_refused : (s.endSession).refused = s.refused := rfl
@[simp] theorem State.endSession_log : (s.endSession).log = s.log := rfl
@[simp] theorem State.endSession_pos : (s.endSession).pos = s.pos := rfl
@[simp] theorem State.endSession_program : (s.endSession).program = s.program := rfl
@[simp] theorem State.endSession_result : (s.endSession).result = s.result := rfl
@[simp] theorem State.endSession_transport : (s.endSession).transport = s.transport := rfl
@[simp] theorem State.endSession_pin : (s.endSession).pin = s.pin := rfl
@[simp] theorem State.endSession_fresh : (s.endSession).fresh = s.fresh := rfl

/-! ### skipEntry -/

@[simp] theorem State.skipEntry_size : (s.skipEntry).size = s.size := rfl
@[simp] theorem State.skipEntry_rot : (s.skipEntry).rot = s.rot := rfl
@[simp] theorem State.skipEntry_winStartCol : (s.skipEntry).winStartCol = s.winStartCol := rfl
@[simp] theorem State.skipEntry_winStartRow : (s.skipEntry).winStartRow = s.winStartRow := rfl
@[simp] theorem State.skipEntry_winEndCol : (s.skipEntry).winEndCol = s.winEndCol := rfl
@[simp] theorem State.skipEntry_winEndRow : (s.skipEntry).winEndRow = s.winEndRow := rfl
@[simp] theorem State.skipEntry_winValid : (s.skipEntry).winValid = s.winValid := rfl
@[simp] theorem State.skipEntry_curCol : (s.skipEntry).curCol = s.curCol := rfl
@[simp] theorem State.skipEntry_curRow : (s.skipEntry).curRow = s.curRow := rfl
@[simp] theorem State.skipEntry_fb : (s.skipEntry).fb = s.fb := rfl
@[simp] theorem State.skipEntry_mode : (s.skipEntry).mode = s.mode := rfl
@[simp] theorem State.skipEntry_phase : (s.skipEntry).phase = s.phase := rfl
@[simp] theorem State.skipEntry_fault : (s.skipEntry).fault = s.fault := rfl
@[simp] theorem State.skipEntry_refused : (s.skipEntry).refused = s.refused := rfl
@[simp] theorem State.skipEntry_log : (s.skipEntry).log = s.log := rfl
@[simp] theorem State.skipEntry_pos : (s.skipEntry).pos = s.pos + 1 := rfl
@[simp] theorem State.skipEntry_program : (s.skipEntry).program = s.program := rfl
@[simp] theorem State.skipEntry_result : (s.skipEntry).result = s.result := rfl
@[simp] theorem State.skipEntry_transport : (s.skipEntry).transport = s.transport := rfl
@[simp] theorem State.skipEntry_pin : (s.skipEntry).pin = s.pin := rfl
@[simp] theorem State.skipEntry_fresh : (s.skipEntry).fresh = s.fresh := rfl

/-! ### splice -/

@[simp] theorem State.splice_size (es : List Entry) : (s.splice es).size = s.size := rfl
@[simp] theorem State.splice_rot (es : List Entry) : (s.splice es).rot = s.rot := rfl
@[simp] theorem State.splice_winStartCol (es : List Entry) : (s.splice es).winStartCol = s.winStartCol := rfl
@[simp] theorem State.splice_winStartRow (es : List Entry) : (s.splice es).winStartRow = s.winStartRow := rfl
@[simp] theorem State.splice_winEndCol (es : List Entry) : (s.splice es).winEndCol = s.winEndCol := rfl
@[simp] theorem State.splice_winEndRow (es : List Entry) : (s.splice es).winEndRow = s.winEndRow := rfl
@[simp] theorem State.splice_winValid (es : List Entry) : (s.splice es).winValid = s.winValid := rfl
@[simp] theorem State.splice_curCol (es : List Entry) : (s.splice es).curCol = s.curCol := rfl
@[simp] theorem State.splice_curRow (es : List Entry) : (s.splice es).curRow = s.curRow := rfl
@[simp] theorem State.splice_fb (es : List Entry) : (s.splice es).fb = s.fb := rfl
@[simp] theorem State.splice_mode (es : List Entry) : (s.splice es).mode = s.mode := rfl
@[simp] theorem State.splice_phase (es : List Entry) : (s.splice es).phase = s.phase := rfl
@[simp] theorem State.splice_fault (es : List Entry) : (s.splice es).fault = s.fault := rfl
@[simp] theorem State.splice_refused (es : List Entry) : (s.splice es).refused = s.refused := rfl
@[simp] theorem State.splice_log (es : List Entry) : (s.splice es).log = s.log := rfl
@[simp] theorem State.splice_pos (es : List Entry) : (s.splice es).pos = s.pos := rfl
@[simp] theorem State.splice_program (es : List Entry) : (s.splice es).program =
    s.program.take s.pos ++ es ++ s.program.drop (s.pos + 1) := rfl
@[simp] theorem State.splice_result (es : List Entry) : (s.splice es).result = s.result := rfl
@[simp] theorem State.splice_transport (es : List Entry) : (s.splice es).transport = s.transport := rfl
@[simp] theorem State.splice_pin (es : List Entry) : (s.splice es).pin = s.pin := rfl
@[simp] theorem State.splice_fresh (es : List Entry) : (s.splice es).fresh = s.fresh := rfl

/-! ### placeEntry -/

@[simp] theorem State.placeEntry_size (e : Entry) : (s.placeEntry e).size = s.size := rfl
@[simp] theorem State.placeEntry_rot (e : Entry) : (s.placeEntry e).rot = s.rot := rfl
@[simp] theorem State.placeEntry_winStartCol (e : Entry) : (s.placeEntry e).winStartCol = s.winStartCol := rfl
@[simp] theorem State.placeEntry_winStartRow (e : Entry) : (s.placeEntry e).winStartRow = s.winStartRow := rfl
@[simp] theorem State.placeEntry_winEndCol (e : Entry) : (s.placeEntry e).winEndCol = s.winEndCol := rfl
@[simp] theorem State.placeEntry_winEndRow (e : Entry) : (s.placeEntry e).winEndRow = s.winEndRow := rfl
@[simp] theorem State.placeEntry_winValid (e : Entry) : (s.placeEntry e).winValid = s.winValid := rfl
@[simp] theorem State.placeEntry_curCol (e : Entry) : (s.placeEntry e).curCol = s.curCol := rfl
@[simp] theorem State.placeEntry_curRow (e : Entry) : (s.placeEntry e).curRow = s.curRow := rfl
@[simp] theorem State.placeEntry_fb (e : Entry) : (s.placeEntry e).fb = s.fb := rfl
@[simp] theorem State.placeEntry_mode (e : Entry) : (s.placeEntry e).mode = s.mode := rfl
@[simp] theorem State.placeEntry_phase (e : Entry) : (s.placeEntry e).phase = s.phase := rfl
@[simp] theorem State.placeEntry_fault (e : Entry) : (s.placeEntry e).fault = s.fault := rfl
@[simp] theorem State.placeEntry_refused (e : Entry) : (s.placeEntry e).refused = s.refused := rfl
@[simp] theorem State.placeEntry_log (e : Entry) : (s.placeEntry e).log = s.log := rfl
@[simp] theorem State.placeEntry_pos (e : Entry) : (s.placeEntry e).pos = s.pos := rfl
@[simp] theorem State.placeEntry_program (e : Entry) : (s.placeEntry e).program =
    s.program.take s.pos ++ List.replicate (s.pos - s.program.length) (.pixelSource ⟨[], []⟩)
      ++ e :: s.program.drop (s.pos + 1) := rfl
@[simp] theorem State.placeEntry_result (e : Entry) : (s.placeEntry e).result = s.result := rfl
@[simp] theorem State.placeEntry_transport (e : Entry) : (s.placeEntry e).transport = s.transport := rfl
@[simp] theorem State.placeEntry_pin (e : Entry) : (s.placeEntry e).pin = s.pin := rfl
@[simp] theorem State.placeEntry_fresh (e : Entry) : (s.placeEntry e).fresh = s.fresh := rfl

/-! ### endProgram -/

@[simp] theorem State.endProgram_size : (s.endProgram).size = s.size := rfl
@[simp] theorem State.endProgram_rot : (s.endProgram).rot = s.rot := rfl
@[simp] theorem State.endProgram_winStartCol : (s.endProgram).winStartCol = s.winStartCol := rfl
@[simp] theorem State.endProgram_winStartRow : (s.endProgram).winStartRow = s.winStartRow := rfl
@[simp] theorem State.endProgram_winEndCol : (s.endProgram).winEndCol = s.winEndCol := rfl
@[simp] theorem State.endProgram_winEndRow : (s.endProgram).winEndRow = s.winEndRow := rfl
@[simp] theorem State.endProgram_winValid : (s.endProgram).winValid = s.winValid := rfl
@[simp] theorem State.endProgram_curCol : (s.endProgram).curCol = s.curCol := rfl
@[simp] theorem State.endProgram_curRow : (s.endProgram).curRow = s.curRow := rfl
@[simp] theorem State.endProgram_fb : (s.endProgram).fb = s.fb := rfl
@[simp] theorem State.endProgram_mode : (s.endProgram).mode = s.mode := rfl
@[simp] theorem State.endProgram_phase : (s.endProgram).phase = s.phase := rfl
@[simp] theorem State.endProgram_fault : (s.endProgram).fault = s.fault := rfl
@[simp] theorem State.endProgram_refused : (s.endProgram).refused = s.refused := rfl
@[simp] theorem State.endProgram_log : (s.endProgram).log = s.log := rfl
@[simp] theorem State.endProgram_pos : (s.endProgram).pos = s.pos := rfl
@[simp] theorem State.endProgram_program : (s.endProgram).program = s.program.take s.pos := rfl
@[simp] theorem State.endProgram_result : (s.endProgram).result = s.result := rfl
@[simp] theorem State.endProgram_transport : (s.endProgram).transport = s.transport := rfl
@[simp] theorem State.endProgram_pin : (s.endProgram).pin = s.pin := rfl
@[simp] theorem State.endProgram_fresh : (s.endProgram).fresh = s.fresh := rfl

/-! ### setFault -/

@[simp] theorem State.setFault_size (r : FaultReason) : (s.setFault r).size = s.size := rfl
@[simp] theorem State.setFault_rot (r : FaultReason) : (s.setFault r).rot = s.rot := rfl
@[simp] theorem State.setFault_winStartCol (r : FaultReason) : (s.setFault r).winStartCol = s.winStartCol := rfl
@[simp] theorem State.setFault_winStartRow (r : FaultReason) : (s.setFault r).winStartRow = s.winStartRow := rfl
@[simp] theorem State.setFault_winEndCol (r : FaultReason) : (s.setFault r).winEndCol = s.winEndCol := rfl
@[simp] theorem State.setFault_winEndRow (r : FaultReason) : (s.setFault r).winEndRow = s.winEndRow := rfl
@[simp] theorem State.setFault_winValid (r : FaultReason) : (s.setFault r).winValid = s.winValid := rfl
@[simp] theorem State.setFault_curCol (r : FaultReason) : (s.setFault r).curCol = s.curCol := rfl
@[simp] theorem State.setFault_curRow (r : FaultReason) : (s.setFault r).curRow = s.curRow := rfl
@[simp] theorem State.setFault_fb (r : FaultReason) : (s.setFault r).fb = s.fb := rfl
@[simp] theorem State.setFault_mode (r : FaultReason) : (s.setFault r).mode = s.mode := rfl
@[simp] theorem State.setFault_phase (r : FaultReason) : (s.setFault r).phase = s.phase := rfl
@[simp] theorem State.setFault_fault (r : FaultReason) : (s.setFault r).fault = some r := rfl
@[simp] theorem State.setFault_refused (r : FaultReason) : (s.setFault r).refused = s.refused := rfl
@[simp] theorem State.setFault_log (r : FaultReason) : (s.setFault r).log = s.log := rfl
@[simp] theorem State.setFault_pos (r : FaultReason) : (s.setFault r).pos = s.pos := rfl
@[simp] theorem State.setFault_program (r : FaultReason) : (s.setFault r).program = s.program := rfl
@[simp] theorem State.setFault_result (r : FaultReason) : (s.setFault r).result = s.result := rfl
@[simp] theorem State.setFault_transport (r : FaultReason) : (s.setFault r).transport = s.transport := rfl
@[simp] theorem State.setFault_pin (r : FaultReason) : (s.setFault r).pin = s.pin := rfl
@[simp] theorem State.setFault_fresh (r : FaultReason) : (s.setFault r).fresh = s.fresh := rfl

/-! ### setRefused -/

@[simp] theorem State.setRefused_size (r : RefusalReason) : (s.setRefused r).size = s.size := rfl
@[simp] theorem State.setRefused_rot (r : RefusalReason) : (s.setRefused r).rot = s.rot := rfl
@[simp] theorem State.setRefused_winStartCol (r : RefusalReason) : (s.setRefused r).winStartCol = s.winStartCol := rfl
@[simp] theorem State.setRefused_winStartRow (r : RefusalReason) : (s.setRefused r).winStartRow = s.winStartRow := rfl
@[simp] theorem State.setRefused_winEndCol (r : RefusalReason) : (s.setRefused r).winEndCol = s.winEndCol := rfl
@[simp] theorem State.setRefused_winEndRow (r : RefusalReason) : (s.setRefused r).winEndRow = s.winEndRow := rfl
@[simp] theorem State.setRefused_winValid (r : RefusalReason) : (s.setRefused r).winValid = s.winValid := rfl
@[simp] theorem State.setRefused_curCol (r : RefusalReason) : (s.setRefused r).curCol = s.curCol := rfl
@[simp] theorem State.setRefused_curRow (r : RefusalReason) : (s.setRefused r).curRow = s.curRow := rfl
@[simp] theorem State.setRefused_fb (r : RefusalReason) : (s.setRefused r).fb = s.fb := rfl
@[simp] theorem State.setRefused_mode (r : RefusalReason) : (s.setRefused r).mode = s.mode := rfl
@[simp] theorem State.setRefused_phase (r : RefusalReason) : (s.setRefused r).phase = s.phase := rfl
@[simp] theorem State.setRefused_fault (r : RefusalReason) : (s.setRefused r).fault = s.fault := rfl
@[simp] theorem State.setRefused_refused (r : RefusalReason) : (s.setRefused r).refused = some r := rfl
@[simp] theorem State.setRefused_log (r : RefusalReason) : (s.setRefused r).log = s.log := rfl
@[simp] theorem State.setRefused_pos (r : RefusalReason) : (s.setRefused r).pos = s.pos := rfl
@[simp] theorem State.setRefused_program (r : RefusalReason) : (s.setRefused r).program = s.program := rfl
@[simp] theorem State.setRefused_result (r : RefusalReason) : (s.setRefused r).result = s.result := rfl
@[simp] theorem State.setRefused_transport (r : RefusalReason) : (s.setRefused r).transport = s.transport := rfl
@[simp] theorem State.setRefused_pin (r : RefusalReason) : (s.setRefused r).pin = s.pin := rfl
@[simp] theorem State.setRefused_fresh (r : RefusalReason) : (s.setRefused r).fresh = s.fresh := rfl

/-! ### openSession -/

@[simp] theorem State.openSession_size (cfg : PanelConfig) : (s.openSession cfg).size = cfg.size := rfl
@[simp] theorem State.openSession_rot (cfg : PanelConfig) : (s.openSession cfg).rot = cfg.rot := rfl
@[simp] theorem State.openSession_winStartCol (cfg : PanelConfig) : (s.openSession cfg).winStartCol = Config.freeByte s.fresh := rfl
@[simp] theorem State.openSession_winStartRow (cfg : PanelConfig) : (s.openSession cfg).winStartRow = Config.freeByte (s.fresh + 1) := rfl
@[simp] theorem State.openSession_winEndCol (cfg : PanelConfig) : (s.openSession cfg).winEndCol = Config.freeByte (s.fresh + 2) := rfl
@[simp] theorem State.openSession_winEndRow (cfg : PanelConfig) : (s.openSession cfg).winEndRow = Config.freeByte (s.fresh + 3) := rfl
@[simp] theorem State.openSession_winValid (cfg : PanelConfig) : (s.openSession cfg).winValid = false := rfl
@[simp] theorem State.openSession_curCol (cfg : PanelConfig) : (s.openSession cfg).curCol = Config.freeByte (s.fresh + 4) := rfl
@[simp] theorem State.openSession_curRow (cfg : PanelConfig) : (s.openSession cfg).curRow = Config.freeByte (s.fresh + 5) := rfl
@[simp] theorem State.openSession_fb (cfg : PanelConfig) : (s.openSession cfg).fb = freshFramebuffer cfg.size (s.fresh + 6) := rfl
@[simp] theorem State.openSession_mode (cfg : PanelConfig) : (s.openSession cfg).mode = .graphics := rfl
@[simp] theorem State.openSession_phase (cfg : PanelConfig) : (s.openSession cfg).phase = .unreset := rfl
@[simp] theorem State.openSession_fault (cfg : PanelConfig) : (s.openSession cfg).fault = s.fault := rfl
@[simp] theorem State.openSession_refused (cfg : PanelConfig) : (s.openSession cfg).refused = s.refused := rfl
@[simp] theorem State.openSession_log (cfg : PanelConfig) : (s.openSession cfg).log = s.log := rfl
@[simp] theorem State.openSession_pos (cfg : PanelConfig) : (s.openSession cfg).pos = s.pos := rfl
@[simp] theorem State.openSession_program (cfg : PanelConfig) : (s.openSession cfg).program = s.program := rfl
@[simp] theorem State.openSession_result (cfg : PanelConfig) : (s.openSession cfg).result = s.result := rfl
@[simp] theorem State.openSession_transport (cfg : PanelConfig) : (s.openSession cfg).transport = s.transport := rfl
@[simp] theorem State.openSession_pin (cfg : PanelConfig) : (s.openSession cfg).pin = s.pin := rfl
@[simp] theorem State.openSession_fresh (cfg : PanelConfig) : (s.openSession cfg).fresh = s.fresh + 6 + cfg.size.fbBytes := rfl

/-! ### sent -/

@[simp] theorem State.sent_size (es : List Event) : (s.sent es).size = s.size := rfl
@[simp] theorem State.sent_rot (es : List Event) : (s.sent es).rot = s.rot := rfl
@[simp] theorem State.sent_winStartCol (es : List Event) : (s.sent es).winStartCol = s.winStartCol := rfl
@[simp] theorem State.sent_winStartRow (es : List Event) : (s.sent es).winStartRow = s.winStartRow := rfl
@[simp] theorem State.sent_winEndCol (es : List Event) : (s.sent es).winEndCol = s.winEndCol := rfl
@[simp] theorem State.sent_winEndRow (es : List Event) : (s.sent es).winEndRow = s.winEndRow := rfl
@[simp] theorem State.sent_winValid (es : List Event) : (s.sent es).winValid = s.winValid := rfl
@[simp] theorem State.sent_curCol (es : List Event) : (s.sent es).curCol = s.curCol := rfl
@[simp] theorem State.sent_curRow (es : List Event) : (s.sent es).curRow = s.curRow := rfl
@[simp] theorem State.sent_fb (es : List Event) : (s.sent es).fb = s.fb := rfl
@[simp] theorem State.sent_mode (es : List Event) : (s.sent es).mode = s.mode := rfl
@[simp] theorem State.sent_phase (es : List Event) : (s.sent es).phase = s.phase := rfl
@[simp] theorem State.sent_fault (es : List Event) : (s.sent es).fault = s.fault := rfl
@[simp] theorem State.sent_refused (es : List Event) : (s.sent es).refused = s.refused := rfl
@[simp] theorem State.sent_log (es : List Event) : (s.sent es).log = s.log ++ es := rfl
@[simp] theorem State.sent_pos (es : List Event) : (s.sent es).pos = s.pos := rfl
@[simp] theorem State.sent_program (es : List Event) : (s.sent es).program = s.program := rfl
@[simp] theorem State.sent_result (es : List Event) : (s.sent es).result = s.result := rfl
@[simp] theorem State.sent_transport (es : List Event) : (s.sent es).transport = s.transport.skip es.length := rfl
@[simp] theorem State.sent_pin (es : List Event) : (s.sent es).pin = s.pin := rfl
@[simp] theorem State.sent_fresh (es : List Event) : (s.sent es).fresh = s.fresh := rfl

/-! ### granted -/

@[simp] theorem State.granted_size : s.granted.size = s.size := rfl
@[simp] theorem State.granted_rot : s.granted.rot = s.rot := rfl
@[simp] theorem State.granted_winStartCol : s.granted.winStartCol = s.winStartCol := rfl
@[simp] theorem State.granted_winStartRow : s.granted.winStartRow = s.winStartRow := rfl
@[simp] theorem State.granted_winEndCol : s.granted.winEndCol = s.winEndCol := rfl
@[simp] theorem State.granted_winEndRow : s.granted.winEndRow = s.winEndRow := rfl
@[simp] theorem State.granted_winValid : s.granted.winValid = s.winValid := rfl
@[simp] theorem State.granted_curCol : s.granted.curCol = s.curCol := rfl
@[simp] theorem State.granted_curRow : s.granted.curRow = s.curRow := rfl
@[simp] theorem State.granted_fb : s.granted.fb = s.fb := rfl
@[simp] theorem State.granted_mode : s.granted.mode = s.mode := rfl
@[simp] theorem State.granted_phase : s.granted.phase = s.phase := rfl
@[simp] theorem State.granted_fault : s.granted.fault = s.fault := rfl
@[simp] theorem State.granted_refused : s.granted.refused = s.refused := rfl
@[simp] theorem State.granted_log : s.granted.log = s.log := rfl
@[simp] theorem State.granted_pos : s.granted.pos = s.pos := rfl
@[simp] theorem State.granted_program : s.granted.program = s.program := rfl
@[simp] theorem State.granted_result : s.granted.result = s.result := rfl
@[simp] theorem State.granted_pin : s.granted.pin = s.pin := rfl
@[simp] theorem State.granted_fresh : s.granted.fresh = s.fresh := rfl
@[simp] theorem State.granted_transport : s.granted.transport = Agent.alwaysOk TransportErr := rfl

end Sys2Proof.Machine
end

