-- ==== Sys2Proof/Laws/Ops.lean ====
section
/-! SUPPORT. Laws/Ops.lean: one lemma for each shared operation that says everything it can do, cited instead of unfolding it. -/

namespace Sys2Proof.Machine

/-! ## Agents -/

@[simp] theorem Agent.answer_skip {ε : Type} (a : Agent ε) (m n : Nat) : (a.skip m).answer n = a.answer (m + n) := by
  simp [Agent.answer, Agent.skip, List.getD_eq_getElem?_getD, List.getElem?_drop]

@[simp] theorem Agent.skip_skip {ε : Type} (a : Agent ε) (m n : Nat) : (a.skip m).skip n = a.skip (m + n) := by
  simp [Agent.skip, List.drop_drop]

@[simp] theorem Agent.skip_zero {ε : Type} (a : Agent ε) : a.skip 0 = a := by
  simp [Agent.skip]

theorem Agent.grants_mono {ε : Type} {a : Agent ε} {m n : Nat} (h : a.grants n) (hm : m ≤ n) : a.grants m :=
  fun k hk => h k (Nat.lt_of_lt_of_le hk hm)

theorem Agent.grants_skip {ε : Type} {a : Agent ε} {m n : Nat} (h : a.grants (m + n)) : (a.skip m).grants n := by
  intro k hk
  rw [Agent.answer_skip]
  exact h (m + k) (by omega)

@[simp] theorem Agent.grants_alwaysOk {ε : Type} (n : Nat) : (Agent.alwaysOk ε).grants n := by
  intro k _
  simp [Agent.alwaysOk, Agent.answer]

/-! ## Events sent -/

@[simp] theorem State.sent_nil (s : State) : s.sent [] = s := by
  simp [State.sent]

@[simp] theorem State.sent_sent (s : State) (es fs : List Event) : (s.sent es).sent fs = s.sent (es ++ fs) := by
  simp [State.sent]

theorem State.record_setTransport (s : State) (e : Event) :
    (s.setTransport (s.transport.skip 1)).record e = s.sent [e] := rfl

/-- A cursor move commutes with what was sent before it. -/
theorem State.sent_setCursor (s : State) (es : List Event) (c r : Byte) :
    (s.sent es).setCursor c r = (s.setCursor c r).sent es := rfl

/-! ## Runs cut by an error -/

@[simp] theorem cutAt_zero (x : Event) (es : List Event) (e : TransportErr) : cutAt (x :: es) 0 e = [x.failedWith e] := by
  simp [cutAt]

@[simp] theorem cutAt_succ (x : Event) (es : List Event) (k : Nat) (e : TransportErr) :
    cutAt (x :: es) (k + 1) e = x :: cutAt es k e := by
  simp [cutAt]

/-- A run cut in its first part. -/
theorem cutAt_append_left {es : List Event} {k : Nat} (h : k < es.length) (fs : List Event) (e : TransportErr) :
    cutAt (es ++ fs) k e = cutAt es k e := by
  induction es generalizing k with
  | nil => simp at h
  | cons x es ih =>
    cases k with
    | zero => simp
    | succ k => simpa using ih (by simpa using h)

/-- A run cut after its first part. -/
theorem cutAt_append_right {es : List Event} {k : Nat} (h : es.length ≤ k) (fs : List Event) (e : TransportErr) :
    cutAt (es ++ fs) k e = es ++ cutAt fs (k - es.length) e := by
  induction es generalizing k with
  | nil => simp
  | cons x es ih =>
    cases k with
    | zero => simp at h
    | succ k => simpa using ih (by simpa using h)

theorem length_cutAt {es : List Event} {k : Nat} (h : k < es.length) (e : TransportErr) : (cutAt es k e).length = k + 1 := by
  simp [cutAt]; omega

/-! ## Bodies -/

@[simp] theorem Flow.andThen_done (s : State) (k : State → Flow) : (Flow.done s).andThen k = k s := rfl
@[simp] theorem Flow.andThen_failed (e : OpError) (s : State) (k : State → Flow) :
    (Flow.failed e s).andThen k = .failed e s := rfl
@[simp] theorem Flow.andThen_raised (r : FaultReason) (s : State) (k : State → Flow) :
    (Flow.raised r s).andThen k = .raised r s := rfl
@[simp] theorem Flow.andThen_stuck (f : Fault) (k : State → Flow) : (Flow.stuck f).andThen k = .stuck f := rfl

@[simp] theorem conclude_done (v : OpValue) (s : State) : conclude v (.done s) = .next (s.returned (.ok v)) := rfl
@[simp] theorem conclude_failed (v : OpValue) (e : OpError) (s : State) :
    conclude v (.failed e s) = .next (s.returned (.err e)) := rfl
@[simp] theorem conclude_raised (v : OpValue) (r : FaultReason) (s : State) :
    conclude v (.raised r s) = .next (s.setFault r) := rfl
@[simp] theorem conclude_stuck (v : OpValue) (f : Fault) : conclude v (.stuck f) = .fault f := rfl

/-- How an operation can answer with a next state: its body ended, failed or raised a fault. -/
theorem conclude_next {v : OpValue} {x : Flow} {t : State} (h : conclude v x = .next t) :
    (∃ u, x = .done u ∧ t = u.returned (.ok v)) ∨ (∃ e u, x = .failed e u ∧ t = u.returned (.err e)) ∨
      (∃ r u, x = .raised r u ∧ t = u.setFault r) := by
  cases x with
  | done u => exact .inl ⟨u, rfl, by simpa using h.symm⟩
  | failed e u => exact .inr (.inl ⟨e, u, rfl, by simpa using h.symm⟩)
  | raised r u => exact .inr (.inr ⟨r, u, rfl, by simpa using h.symm⟩)
  | stuck f => simp at h

/-- What a body can do: P holds of every state it can leave. -/
def Flow.Leaves (P : State → Prop) : Flow → Prop
  | .done s => P s
  | .failed _ s => P s
  | .raised _ s => P s
  | .stuck _ => True

theorem Flow.Leaves.mono {P Q : State → Prop} {x : Flow} (h : x.Leaves P) (hpq : ∀ s, P s → Q s) : x.Leaves Q := by
  cases x <;> first | exact hpq _ h | trivial

/-- A sequence of two parts: what the first leaves the second starts from. -/
theorem Flow.Leaves.andThen {P Q : State → Prop} {x : Flow} {k : State → Flow} (h : x.Leaves P)
    (hk : ∀ s, P s → (k s).Leaves Q) (hpq : ∀ s, P s → Q s) : (x.andThen k).Leaves Q := by
  cases x with
  | done s => exact hk s h
  | failed e s => exact hpq s h
  | raised r s => exact hpq s h
  | stuck f => trivial

/-- Every next state of an operation is one its body leaves, with its outcome recorded. -/
theorem conclude_leaves {P : State → Prop} {v : OpValue} {x : Flow} {t : State} (hx : x.Leaves P)
    (h : conclude v x = .next t) :
    ∃ u, P u ∧ ((∃ r, t = u.returned r) ∨ ∃ r, t = u.setFault r) := by
  rcases conclude_next h with ⟨u, rfl, rfl⟩ | ⟨e, u, rfl, rfl⟩ | ⟨r, u, rfl, rfl⟩
  · exact ⟨u, hx, .inl ⟨_, rfl⟩⟩
  · exact ⟨u, hx, .inl ⟨_, rfl⟩⟩
  · exact ⟨u, hx, .inr ⟨_, rfl⟩⟩

/-! ## Transport and pin writes -/

theorem transportWrite_ok (ev : Reply TransportErr → Event) (s : State) (h : s.transport.answer 0 = .reply .ok) :
    transportWrite ev s = .done (s.sent [ev .ok]) := by
  simp only [transportWrite, h, State.record_setTransport]

theorem transportWrite_err (ev : Reply TransportErr → Event) (s : State) (e : TransportErr)
    (h : s.transport.answer 0 = .reply (.err e)) :
    transportWrite ev s = .failed (.transport e) (s.sent [ev (.err e)]) := by
  simp only [transportWrite, h, State.record_setTransport]

theorem transportWrite_never (ev : Reply TransportErr → Event) (s : State) (h : s.transport.answer 0 = .never) :
    transportWrite ev s = .stuck .agentSilent := by
  simp only [transportWrite, h]

/-- Whatever the answer, a write that returns has logged its one event. -/
theorem transportWrite_leaves (ev : Reply TransportErr → Event) (s : State) :
    (transportWrite ev s).Leaves fun t => ∃ r, t = s.sent [ev r] := by
  unfold transportWrite
  split
  · exact ⟨_, rfl⟩
  · exact ⟨_, rfl⟩
  · trivial

theorem pinSet_noOp (l : Level) (s : State) : pinSet .noOp l s = .done (s.record (.pin l .ok)) := rfl

theorem pinSet_ok (l : Level) (s : State) (h : s.pin.answer 0 = .reply .ok) :
    pinSet .wired l s = .done ((s.setPin (s.pin.skip 1)).record (.pin l .ok)) := by
  simp only [pinSet, h]

theorem pinSet_err (l : Level) (s : State) (e : PinErr) (h : s.pin.answer 0 = .reply (.err e)) :
    pinSet .wired l s = .failed (.pin e) ((s.setPin (s.pin.skip 1)).record (.pin l (.err e))) := by
  simp only [pinSet, h]

/-- Whatever the pin and its answer, a pin write that returns has logged its one event. -/
theorem pinSet_leaves (sel : PinSel) (l : Level) (s : State) :
    (pinSet sel l s).Leaves fun t => ∃ r a, t = (s.setPin a).record (.pin l r) := by
  cases sel with
  | noOp => exact ⟨_, s.pin, rfl⟩
  | wired =>
    simp only [pinSet]
    split
    · exact ⟨_, _, rfl⟩
    · exact ⟨_, _, rfl⟩
    · trivial

/-! ## The mode check -/

theorem gate_yes {op : HostOp} {s : State} (h : admits op s.mode = true) (run : StepOutcome) : gate op s run = run := by
  simp [gate, h]

theorem gate_no {op : HostOp} {s : State} (h : admits op s.mode = false) (run : StepOutcome) :
    gate op s run = .next (s.setRefused (.modeRefused op.code s.mode)) := by
  simp [gate, h, refuseOp]

/-- How an operation answers with a next state: it was admitted and ran, or it was refused. -/
theorem gate_next {op : HostOp} {s t : State} {run : StepOutcome} (h : gate op s run = .next t) :
    (admits op s.mode = true ∧ run = .next t) ∨
      (admits op s.mode = false ∧ t = s.setRefused (.modeRefused op.code s.mode)) := by
  cases ha : admits op s.mode with
  | true => exact .inl ⟨rfl, by rwa [gate_yes ha] at h⟩
  | false =>
    rw [gate_no ha] at h
    exact .inr ⟨rfl, by simpa using h.symm⟩

theorem runCommand_session {send : State → Flow} {s : State} (h : s.mode ≠ .none) :
    runCommand send s = conclude .unit (send s) := by
  unfold runCommand
  cases hm : s.mode with
  | none => exact absurd hm h
  | graphics => rfl
  | raw => rfl

theorem runCommand_noSession {send : State → Flow} {s : State} (h : s.mode = .none) :
    runCommand send s = .refused .noTransport := by
  simp [runCommand, h]

/-! ## The host's program -/

theorem haltOf_running {s : State} (hf : s.fault = none) (hr : s.refused = none) : haltOf s = none := by
  simp [haltOf, hf, hr]

/-- The entry placed in a program is the next one fetched. -/
theorem program_placeEntry (s : State) (e : Entry) : (s.placeEntry e).program[s.pos]? = some e := by
  have h : (s.program.take s.pos ++ List.replicate (s.pos - s.program.length) (Entry.pixelSource ⟨[], []⟩)).length = s.pos := by
    simp; omega
  rw [State.placeEntry_program, List.getElem?_append_right (by omega), h]
  simp

/-- The codes no operation has are exactly those an unassigned code can carry. -/
theorem unassigned_iff (code : Byte) : hostOpOf code = none ↔ ∀ op : HostOp, op.code ≠ code := by
  have hall : ∀ op : HostOp, op ∈ HostOp.all := by intro op; cases op <;> decide
  simp only [hostOpOf, List.find?_eq_none, beq_iff_eq]
  exact ⟨fun h op => h op (hall op), fun h op _ => h op⟩

/-- A step of a state that has not halted is what its next entry does. -/
theorem step_entry {s : State} {e : Entry} (hf : s.fault = none) (hr : s.refused = none) (he : s.program[s.pos]? = some e) :
    step s = runEntry e s := by
  simp only [step, haltOf_running hf hr, fetch, he]

/-- A table word that decodes is placed as that operation. -/
theorem withFetchWord_operation (s : State) (nbits w : Nat) (i : Instr) (h : decodeTableWord nbits w = some i) :
    s.withFetchWord nbits w = s.placeEntry (.operation i) := by
  have hd : decode (bytesOfWord nbits w) = .ok i := by
    unfold decodeTableWord at h
    cases hx : decode (bytesOfWord nbits w) with
    | ok j => rw [hx] at h; exact congrArg Except.ok (Option.some.inj h)
    | error e => rw [hx] at h; cases h
  simp only [State.withFetchWord, entryOfBytes, hd]

/-- A step after a table word was placed runs the instruction that word decodes to. -/
theorem step_withFetchWord (s : State) (nbits w : Nat) (i : Instr) (hf : s.fault = none) (hr : s.refused = none)
    (h : decodeTableWord nbits w = some i) : step (s.withFetchWord nbits w) = exec i (s.withFetchWord nbits w) := by
  rw [withFetchWord_operation s nbits w i h]
  exact step_entry (s := s.placeEntry (.operation i)) hf hr (program_placeEntry s _)

end Sys2Proof.Machine
end

