-- ==== Sys2Proof/Laws/Display.lean ====
section
/-! SUPPORT. Laws/Display.lean: what the encoder functions, the address sequence, the initialization sequence and DRAW's loop can
do. -/

namespace Sys2Proof.Machine

/-! ## Legal commands -/

theorem legal_two (c v : Byte) (r : Reply TransportErr) (h : c = 0xD5 ∨ c = 0x81 ∨ c = 0xD9) :
    (Event.cmd [c, v] r).legal = true := by
  rcases h with rfl | rfl | rfl <;> rfl

theorem legal_one (c : Byte) (r : Reply TransportErr)
    (h : c ∈ ([0x2F, 0x2E, 0xAF, 0xAE, 0xA1, 0xA0, 0xC8, 0xC0] : List Byte)) : (Event.cmd [c] r).legal = true := by
  simp only [List.mem_cons, List.not_mem_nil, or_false] at h
  rcases h with rfl | rfl | rfl | rfl | rfl | rfl | rfl | rfl <;> rfl

theorem decode_pageStart (p : Nat) (h : p ≤ 7) : decodeCommand [0xB0 + BitVec.ofNat 8 p] = .ok (.pageStart p) := by
  interval_cases p <;> rfl

theorem decode_colLow (n : BitVec 4) : decodeCommand [0x00 + n.setWidth 8] = .ok (.colLow n) := by
  revert n; decide

theorem decode_colHigh (n : BitVec 4) : decodeCommand [0x10 + n.setWidth 8] = .ok (.colHigh n) := by
  revert n; decide

theorem legal_pageStart (p : Nat) (r : Reply TransportErr) (h : p ≤ 7) :
    (Event.cmd [0xB0 + BitVec.ofNat 8 p] r).legal = true := by
  simp only [Event.legal, decode_pageStart p h]; rfl

theorem legal_colLow (n : BitVec 4) (r : Reply TransportErr) : (Event.cmd [0x00 + n.setWidth 8] r).legal = true := by
  simp only [Event.legal, decode_colLow]; rfl

theorem legal_colHigh (n : BitVec 4) (r : Reply TransportErr) : (Event.cmd [0x10 + n.setWidth 8] r).legal = true := by
  simp only [Event.legal, decode_colHigh]; rfl

/-! ## Sending -/

/-- t is s after events the block may emit were sent, whatever their answers. -/
def Sends (s t : State) : Prop := ∃ es, t = s.sent es ∧ ∀ e ∈ es, e.legal = true

theorem Sends.refl (s : State) : Sends s s := ⟨[], by simp, by simp⟩

theorem Sends.trans {s t u : State} (h : Sends s t) (h' : Sends t u) : Sends s u := by
  obtain ⟨es, rfl, hes⟩ := h
  obtain ⟨fs, rfl, hfs⟩ := h'
  refine ⟨es ++ fs, by simp, ?_⟩
  intro e he
  rcases List.mem_append.1 he with h | h
  · exact hes e h
  · exact hfs e h

theorem transportWrite_sends (ev : Reply TransportErr → Event) (s : State) (h : ∀ r, (ev r).legal = true) :
    (transportWrite ev s).Leaves (Sends s) :=
  (transportWrite_leaves ev s).mono fun t ⟨r, ht⟩ => ⟨[ev r], ht, by simpa using h r⟩

/-- A part that only sends, followed by a part that only sends. -/
theorem Sends.andThen {s : State} {x : Flow} {k : State → Flow} (h : x.Leaves (Sends s))
    (hk : ∀ u, Sends s u → (k u).Leaves (Sends u)) : (x.andThen k).Leaves (Sends s) :=
  h.andThen (fun u hu => (hk u hu).mono fun _ ht => hu.trans ht) fun _ hu => hu

theorem sendClockDiv_sends (v : Byte) (s : State) : (sendClockDiv v s).Leaves (Sends s) :=
  transportWrite_sends _ _ fun r => legal_two _ v r (by simp)
theorem sendContrast_sends (v : Byte) (s : State) : (sendContrast v s).Leaves (Sends s) :=
  transportWrite_sends _ _ fun r => legal_two _ v r (by simp)
theorem sendPrecharge_sends (v : Byte) (s : State) : (sendPrecharge v s).Leaves (Sends s) :=
  transportWrite_sends _ _ fun r => legal_two _ v r (by simp)
theorem sendScroll_sends (b : Bool) (s : State) : (sendScroll b s).Leaves (Sends s) :=
  transportWrite_sends _ _ fun r => legal_one _ r (by cases b <;> simp)
theorem sendDisplay_sends (b : Bool) (s : State) : (sendDisplay b s).Leaves (Sends s) :=
  transportWrite_sends _ _ fun r => legal_one _ r (by cases b <;> simp)
theorem sendSegRemap_sends (b : Bool) (s : State) : (sendSegRemap b s).Leaves (Sends s) :=
  transportWrite_sends _ _ fun r => legal_one _ r (by cases b <;> simp)
theorem sendComDir_sends (b : Bool) (s : State) : (sendComDir b s).Leaves (Sends s) :=
  transportWrite_sends _ _ fun r => legal_one _ r (by cases b <;> simp)
theorem sendPageStart_sends (p : Nat) (s : State) : (sendPageStart p s).Leaves (Sends s) := by
  unfold sendPageStart
  split
  · exact Sends.refl s
  · rename_i h
    exact transportWrite_sends _ _ fun r => legal_pageStart p r (by simpa [lastPage] using h)
theorem sendColLow_sends (n : BitVec 4) (s : State) : (sendColLow n s).Leaves (Sends s) :=
  transportWrite_sends _ _ fun r => legal_colLow n r
theorem sendColHigh_sends (n : BitVec 4) (s : State) : (sendColHigh n s).Leaves (Sends s) :=
  transportWrite_sends _ _ fun r => legal_colHigh n r

theorem sendDrawAddress_sends (s : State) : (sendDrawAddress s).Leaves (Sends s) :=
  Sends.andThen (sendPageStart_sends _ s) fun _ _ =>
    Sends.andThen (sendColLow_sends _ _) fun _ _ => sendColHigh_sends _ _

theorem sendRemap_sends (rot : Rotation) (s : State) : (sendRemap rot s).Leaves (Sends s) :=
  Sends.andThen (sendSegRemap_sends _ s) fun _ _ => sendComDir_sends _ _

theorem initSequence_sends (s : State) : (initSequence s).Leaves (Sends s) :=
  Sends.andThen (sendClockDiv_sends _ s) fun _ _ =>
    Sends.andThen (sendRemap_sends _ _) fun _ _ =>
      Sends.andThen (sendContrast_sends _ _) fun _ _ =>
        Sends.andThen (sendPrecharge_sends _ _) fun _ _ =>
          Sends.andThen (sendScroll_sends _ _) fun _ _ => sendDisplay_sends _ _

/-! ## The address sequence -/

theorem sendPageStart_ok (p : Nat) (s : State) (hp : p ≤ 7) :
    sendPageStart p s = cmdWrite [0xB0 + BitVec.ofNat 8 p] s := by
  unfold sendPageStart
  exact if_neg (Nat.not_lt.2 hp)

theorem sendPageStart_raised (p : Nat) (s : State) (hp : p > 7) :
    sendPageStart p s = .raised (.pageOutOfRange p) s := by
  unfold sendPageStart
  exact if_pos hp

/-- With three `Ok` answers and a page the encoder takes, the address sequence sends its three commands (R121). -/
theorem sendDrawAddress_ok (s : State) (hp : pageOf s.curRow ≤ 7) (h : s.transport.grants 3) :
    sendDrawAddress s = .done (s.sent (addressEvents (pageOf s.curRow) s.curCol)) := by
  have h0 := h 0 (by omega)
  have h1 := h 1 (by omega)
  have h2 := h 2 (by omega)
  rw [sendDrawAddress, sendPageStart_ok _ _ hp, cmdWrite, transportWrite_ok _ _ h0, Flow.andThen_done, sendColLow,
    cmdWrite, transportWrite_ok _ _ (by simpa using h1), Flow.andThen_done, sendColHigh, cmdWrite,
    transportWrite_ok _ _ (by simpa using h2)]
  simp [addressEvents]

/-- A page above 7 faults before anything is sent (R108, R121). -/
theorem sendDrawAddress_raised (s : State) (hp : pageOf s.curRow > 7) :
    sendDrawAddress s = .raised (.pageOutOfRange (pageOf s.curRow)) s := by
  rw [sendDrawAddress, sendPageStart_raised _ _ hp, Flow.andThen_raised]

/-! ## DRAW -/

/-- t is s with the cursor moved inside the window it was in, and events the block may emit sent. -/
def Draws (s t : State) : Prop :=
  ∃ c r es, t = (s.setCursor c r).sent es ∧ (∀ e ∈ es, e.legal = true) ∧ (s.WindowOk → (s.setCursor c r).WindowOk)

theorem Draws.refl (s : State) : Draws s s := ⟨s.curCol, s.curRow, [], by simp [State.setCursor], by simp, fun h => h⟩

theorem Draws.of_sends {s t : State} (h : Sends s t) : Draws s t := by
  obtain ⟨es, rfl, hes⟩ := h
  exact ⟨s.curCol, s.curRow, es, rfl, hes, fun h => h⟩

theorem Draws.trans {s t u : State} (h : Draws s t) (h' : Draws t u) : Draws s u := by
  obtain ⟨c, r, es, rfl, hes, hw⟩ := h
  obtain ⟨c', r', fs, rfl, hfs, hw'⟩ := h'
  refine ⟨c', r', es ++ fs, by simp [State.sent, State.setCursor], ?_, ?_⟩
  · intro e he
    rcases List.mem_append.1 he with h | h
    · exact hes e h
    · exact hfs e h
  · intro hs
    have h1 := hw hs
    have h2 := hw' ⟨h1.cols, h1.rows, h1.colLow, h1.colHigh, h1.rowLow, h1.rowHigh, h1.aligned⟩
    exact ⟨h2.cols, h2.rows, h2.colLow, h2.colHigh, h2.rowLow, h2.rowHigh, h2.aligned⟩

theorem crossedRow_toNat (s : State) :
    (crossedRow s).toNat =
      if s.curRow.toNat + 8 ≥ s.winEndRow.toNat then s.winStartRow.toNat else s.curRow.toNat + 8 := by
  have hr := s.winEndRow.isLt
  unfold crossedRow pageHeight
  split
  · rfl
  · simp only [BitVec.toNat_ofNat]
    omega

/-- After a crossing the cursor is at the window's start column, in a page row of the window (R125). -/
theorem windowOk_cross (s : State) (h : s.WindowOk) : (s.setCursor s.winStartCol (crossedRow s)).WindowOk := by
  have hc := crossedRow_toNat s
  obtain ⟨h1, h2, h3, h4, h5, h6, h7⟩ := h
  simp only [pageHeight] at h7
  constructor <;> simp only [State.setCursor_winStartCol, State.setCursor_winEndCol, State.setCursor_winStartRow,
    State.setCursor_winEndRow, State.setCursor_curCol, State.setCursor_curRow, pageHeight] <;> first | omega | (split at hc <;> omega)

theorem cross_draws (s : State) : (cross s).Leaves (Draws s) := by
  unfold cross
  refine (sendDrawAddress_sends _).mono ?_
  rintro t ⟨es, rfl, hes⟩
  exact ⟨_, _, es, rfl, hes, windowOk_cross s⟩

theorem data_legal (bytes : List Byte) (r : Reply TransportErr) (h : 1 ≤ bytes.length) (h' : bytes.length ≤ 255) :
    (Event.data bytes r).legal = true := by
  simp only [Event.legal, decide_eq_true_eq]
  exact ⟨h, h'⟩

theorem roomLeft_le (s : State) : roomLeft s ≤ 255 := by
  have := s.winEndCol.isLt
  simp only [roomLeft]; omega

theorem toNat_moved {s : State} {n : Nat} (h0 : 0 < roomLeft s) (h : n ≤ roomLeft s) :
    (BitVec.ofNat 8 (s.curCol.toNat + n)).toNat = s.curCol.toNat + n := by
  have := s.winEndCol.isLt
  simp only [roomLeft] at h0 h
  rw [BitVec.toNat_ofNat]; omega

/-- Moving past n bytes that fit in the row: the cursor moves on, or crosses when the row is full. -/
theorem advance_eq {s : State} {n : Nat} (h0 : 0 < roomLeft s) (h : n ≤ roomLeft s) :
    advance n s = if n = roomLeft s then cross s
      else .done (s.setCursor (BitVec.ofNat 8 (s.curCol.toNat + n)) s.curRow) := by
  have hm := toNat_moved h0 h
  unfold advance
  simp only [State.setCursor_curCol, State.setCursor_winEndCol]
  have : BitVec.ofNat 8 (s.curCol.toNat + n) = s.winEndCol ↔ n = roomLeft s := by
    rw [← BitVec.toNat_inj, hm]
    simp only [roomLeft] at h0 h ⊢
    omega
  simp only [this]
  split <;> rfl

theorem advance_draws {s : State} {n : Nat} (h0 : 0 < roomLeft s) (h : n ≤ roomLeft s) :
    (advance n s).Leaves (Draws s) := by
  rw [advance_eq h0 h]
  split
  · exact cross_draws s
  · rename_i hne
    refine ⟨_, _, [], (State.sent_nil _).symm, by simp, fun hw => ?_⟩
    have hm := toNat_moved h0 h
    obtain ⟨h1, h2, h3, h4, h5, h6, h7⟩ := hw
    simp only [roomLeft] at h0 h hne
    constructor <;> simp only [State.setCursor_winStartCol, State.setCursor_winEndCol, State.setCursor_winStartRow,
      State.setCursor_winEndRow, State.setCursor_curCol, State.setCursor_curRow] <;> first | assumption | omega

/-- Whatever the answers, DRAW's loop moves the cursor inside its window and sends events the block may emit. -/
theorem drawLoop_draws (passes rest : List Byte) (s : State) : (drawLoop passes rest s).Leaves (Draws s) := by
  induction passes generalizing rest s with
  | nil => cases rest <;> first | exact Draws.refl s | trivial
  | cons p passes ih =>
    cases rest with
    | nil => exact Draws.refl s
    | cons b more =>
      unfold drawLoop
      split
      · trivial
      · rename_i hroom
        have hlen : ((b :: more).take (roomLeft s)).length ≤ roomLeft s := by simp
        have hpos : 1 ≤ ((b :: more).take (roomLeft s)).length := by simp; omega
        refine Flow.Leaves.andThen (P := fun t => ∃ r, t = s.sent [.data ((b :: more).take (roomLeft s)) r])
          (transportWrite_leaves _ s) ?_ ?_
        · rintro u ⟨r, rfl⟩
          have hs1 : Draws s (s.sent [.data ((b :: more).take (roomLeft s)) r]) :=
            Draws.of_sends ⟨_, rfl, by simpa using data_legal _ r hpos (Nat.le_trans hlen (roomLeft_le s))⟩
          refine Flow.Leaves.andThen (P := Draws s) ((advance_draws ?_ ?_).mono fun _ h => hs1.trans h) ?_ ?_
          · exact Nat.pos_of_ne_zero hroom
          · exact hlen
          · exact fun v hv => (ih _ v).mono fun _ h => hv.trans h
          · exact fun _ h => h
        · rintro u ⟨r, rfl⟩
          exact Draws.of_sends ⟨_, rfl, by simpa using data_legal _ r hpos (Nat.le_trans hlen (roomLeft_le s))⟩

theorem drawBody_draws (bytes : List Byte) (s : State) : (drawBody bytes s).Leaves (Draws s) := by
  unfold drawBody
  split
  · exact drawLoop_draws _ _ s
  · exact Draws.refl s

/-- One pass of DRAW's loop whose data write is answered `Ok` (R124). -/
theorem drawLoop_pass (p : Byte) (passes rest : List Byte) (s : State) (hr : rest ≠ []) (hroom : 0 < roomLeft s)
    (h : s.transport.answer 0 = .reply .ok) :
    drawLoop (p :: passes) rest s =
      ((if roomLeft s ≤ rest.length then cross (s.sent [.data (rest.take (roomLeft s)) .ok])
        else .done ((s.setCursor (BitVec.ofNat 8 (s.curCol.toNat + rest.length)) s.curRow).sent [.data rest .ok])).andThen
        fun t => drawLoop passes (rest.drop (roomLeft s)) t) := by
  cases rest with
  | nil => exact absurd rfl hr
  | cons b more =>
    rw [drawLoop, if_neg (by omega), dataWrite, transportWrite_ok _ _ h, Flow.andThen_done,
      advance_eq (s := s.sent _) (by exact hroom) (by simp [roomLeft])]
    congr 1
    by_cases hle : roomLeft s ≤ (b :: more).length
    · rw [if_pos hle, if_pos]
      rw [List.length_take, Nat.min_eq_left hle]; rfl
    · rw [if_neg hle, if_neg]
      · have ht : (b :: more).take (roomLeft s) = b :: more := List.take_of_length_le (by omega)
        rw [ht]; rfl
      · rw [List.length_take, Nat.min_eq_right (by omega)]
        intro hcontra
        exact hle (Nat.le_of_eq hcontra.symm)

/-- DRAW's loop with nothing left to send is done. -/
@[simp] theorem drawLoop_nil (passes : List Byte) (s : State) : drawLoop passes [] s = .done s := by
  cases passes <;> rfl

/-! ## The window -/

/-- SET_DRAW_AREA's body, whatever the answers: nothing is written and it faults, or the window and cursor are recorded, the
window holds its cursor, and events the block may emit are sent (R123). -/
theorem drawAreaBody_leaves (sc sr ec er : Byte) (s : State) :
    (drawAreaBody sc sr ec er s).Leaves fun t =>
      t = s ∨ (((s.setWindow sc sr ec er).setCursor sc sr).WindowOk ∧ Sends ((s.setWindow sc sr ec er).setCursor sc sr) t) := by
  unfold drawAreaBody
  split
  · rename_i h
    refine (sendDrawAddress_sends _).mono fun t ht => .inr ⟨?_, ht⟩
    exact ⟨h.1, h.2, Nat.le_refl _, h.1, Nat.le_refl _, h.2, by simp⟩
  · exact .inl rfl

end Sys2Proof.Machine
end

