-- ==== Sys2Proof/Laws/Memory.lean ====
section
/-! SUPPORT. Laws/Memory.lean: what reading, writing and filling the framebuffer do, and that every memory operation keeps the
canonical form. -/

namespace Sys2Proof.Machine

@[simp] theorem Memory.read_nil (i : Nat) : Memory.read [] i = none := rfl

theorem Memory.read_cons (a : Nat) (v : Byte) (m : Memory) (i : Nat) :
    Memory.read ((a, v) :: m) i = if i = a then some v else m.read i := rfl

/-- A read after a write to the same index gives the byte written. -/
@[simp] theorem Memory.read_write_same (m : Memory) (i : Nat) (v : Byte) : (m.write i v).read i = some v := by
  induction m with
  | nil => simp [Memory.write, Memory.read]
  | cons c rest ih =>
    obtain ⟨a, u⟩ := c
    simp only [Memory.write]
    split
    · simp [Memory.read]
    · split <;> simp_all [Memory.read]

/-- A write leaves every other index alone. -/
theorem Memory.read_write_other (m : Memory) (i j : Nat) (v : Byte) (h : j ≠ i) :
    (m.write i v).read j = m.read j := by
  induction m with
  | nil => simp [Memory.write, Memory.read, h, Memory.unlisted]
  | cons c rest ih =>
    obtain ⟨a, u⟩ := c
    simp only [Memory.write]
    split
    · simp [Memory.read, h]
    · split
      · simp_all [Memory.read]
      · simp [Memory.read, ih]

/-! ## The canonical form -/

/-- The canonical form is that the listed indices strictly rise. -/
theorem Memory.wf_iff (m : Memory) : m.wf = true ↔ (m.map Prod.fst).Pairwise (· < ·) := by
  induction m with
  | nil => simp [Memory.wf]
  | cons c rest ih =>
    obtain ⟨a, u⟩ := c
    cases rest with
    | nil => simp [Memory.wf]
    | cons d rest' =>
      obtain ⟨b, v⟩ := d
      simp only [Memory.wf, Bool.and_eq_true, decide_eq_true_eq, ih, List.map_cons, List.pairwise_cons,
        List.mem_cons, forall_eq_or_imp]
      constructor
      · rintro ⟨hab, hb, hp⟩
        exact ⟨⟨hab, fun x hx => Nat.lt_trans hab (hb x hx)⟩, hb, hp⟩
      · rintro ⟨⟨hab, -⟩, hb, hp⟩
        exact ⟨hab, hb, hp⟩

/-- A write lists its index beside those already listed, and no other. -/
theorem Memory.mem_write_keys (m : Memory) (i : Nat) (v : Byte) (x : Nat) :
    x ∈ (m.write i v).map Prod.fst → x = i ∨ x ∈ m.map Prod.fst := by
  induction m with
  | nil => simp [Memory.write]
  | cons c rest ih =>
    obtain ⟨a, u⟩ := c
    simp only [Memory.write]
    split
    · simp
    · split
      · rename_i h; subst h; simp
      · simp only [List.map_cons, List.mem_cons]
        rintro (h | h)
        · exact .inr (.inl h)
        · rcases ih h with h | h
          · exact .inl h
          · exact .inr (.inr h)

/-- A write keeps the canonical form. -/
theorem Memory.wf_write (m : Memory) (i : Nat) (v : Byte) (h : m.wf = true) : (m.write i v).wf = true := by
  rw [Memory.wf_iff] at h ⊢
  induction m with
  | nil => simp [Memory.write]
  | cons c rest ih =>
    obtain ⟨a, u⟩ := c
    simp only [List.map_cons, List.pairwise_cons] at h
    simp only [Memory.write]
    split
    · rename_i hi
      simp only [List.map_cons, List.pairwise_cons, List.mem_cons, forall_eq_or_imp]
      exact ⟨⟨hi, fun x hx => Nat.lt_trans hi (h.1 x hx)⟩, h⟩
    · split
      · simpa using h
      · rename_i h1 h2
        simp only [List.map_cons, List.pairwise_cons]
        refine ⟨fun x hx => ?_, ih h.2⟩
        rcases Memory.mem_write_keys rest i v x hx with h' | h'
        · omega
        · exact h.1 x h'

/-! ## Whole framebuffers -/

/-- The listed indices of a filled memory. -/
theorem Memory.fillFrom_keys (f : Nat → Byte) (i n : Nat) :
    (Memory.fillFrom f i n).map Prod.fst = List.range' i n := by
  induction n generalizing i with
  | zero => rfl
  | succ n ih => simp [Memory.fillFrom, ih, List.range'_succ]

/-- A filled memory has exactly the indices 0 to n-1. -/
theorem Memory.covers_fill (n : Nat) (f : Nat → Byte) : (Memory.fill n f).covers n := by
  simp [Memory.covers, Memory.fill, Memory.fillFrom_keys, List.range_eq_range']

/-- A memory with exactly the indices 0 to n-1 is in canonical form. -/
theorem Memory.wf_of_covers (m : Memory) (n : Nat) (h : m.covers n) : m.wf = true := by
  rw [Memory.wf_iff, h]
  exact List.pairwise_lt_range

/-- A filled memory is in canonical form. -/
theorem Memory.wf_fill (n : Nat) (f : Nat → Byte) : (Memory.fill n f).wf = true :=
  Memory.wf_of_covers _ n (Memory.covers_fill n f)

/-- Reading a filled memory. -/
theorem Memory.read_fillFrom (f : Nat → Byte) (i n j : Nat) :
    (Memory.fillFrom f i n).read j = if i ≤ j ∧ j < i + n then some (f j) else none := by
  induction n generalizing i with
  | zero => simp [Memory.fillFrom]
  | succ n ih =>
    simp only [Memory.fillFrom, Memory.read_cons, ih]
    by_cases h : j = i
    · subst h; simp
    · simp only [if_neg h]
      congr 1
      apply propext
      omega

/-- Byte j of a filled memory. -/
theorem Memory.read_fill (n : Nat) (f : Nat → Byte) (j : Nat) :
    (Memory.fill n f).read j = if j < n then some (f j) else none := by
  simp [Memory.fill, Memory.read_fillFrom]

/-- Writing an index that is listed lists the same indices. -/
theorem Memory.write_keys (m : Memory) (i : Nat) (v : Byte) (hm : m.wf = true) (h : (m.read i).isSome) :
    (m.write i v).map Prod.fst = m.map Prod.fst := by
  rw [Memory.wf_iff] at hm
  induction m with
  | nil => simp at h
  | cons c rest ih =>
    obtain ⟨a, u⟩ := c
    simp only [List.map_cons, List.pairwise_cons] at hm
    simp only [Memory.read_cons] at h
    simp only [Memory.write]
    by_cases hi : i = a
    · subst hi; simp
    · simp only [if_neg hi] at h ⊢
      have key : a < i := by
        by_contra hlt
        have hn : ∀ (r : Memory), (∀ x ∈ r.map Prod.fst, a < x) → r.read i = none := by
          intro r hr
          induction r with
          | nil => rfl
          | cons d r' ih' =>
            obtain ⟨b, w⟩ := d
            simp only [List.map_cons, List.mem_cons, forall_eq_or_imp] at hr
            rw [Memory.read_cons, if_neg (by omega), ih' hr.2]
        rw [hn rest hm.1] at h
        simp at h
      rw [if_neg (by omega)]
      simp [ih hm.2 h]

/-- An index is listed in a whole framebuffer exactly when it is below its length. -/
theorem Memory.read_isSome (m : Memory) (i : Nat) : (m.read i).isSome = true ↔ i ∈ m.map Prod.fst := by
  induction m with
  | nil => simp
  | cons c rest ih =>
    obtain ⟨a, u⟩ := c
    rw [Memory.read_cons]
    by_cases h : i = a
    · simp [h]
    · rw [if_neg h, ih]; simp [h]

theorem Memory.read_isSome_of_covers (m : Memory) (n i : Nat) (h : m.covers n) : (m.read i).isSome = true ↔ i < n := by
  rw [Memory.read_isSome, h, List.mem_range]

/-- Writing inside a whole framebuffer leaves a whole framebuffer. -/
theorem Memory.covers_write (m : Memory) (n i : Nat) (v : Byte) (h : m.covers n) (hi : i < n) :
    (m.write i v).covers n := by
  have hw := Memory.write_keys m i v (Memory.wf_of_covers m n h) ((Memory.read_isSome_of_covers m n i h).2 hi)
  exact hw.trans h

/-! ## Reading in order -/

theorem Memory.readSeq_range' (m : Memory) (i n : Nat) (h : m.map Prod.fst = List.range' i n) :
    m.readSeq i n = some (m.map Prod.snd) := by
  induction n generalizing m i with
  | zero =>
    have : m = [] := by simpa using h
    subst this; rfl
  | succ n ih =>
    cases m with
    | nil => simp [List.range'_succ] at h
    | cons c rest =>
      obtain ⟨a, v⟩ := c
      simp only [List.map_cons, List.range'_succ, List.cons.injEq] at h
      obtain ⟨rfl, h⟩ := h
      simp [Memory.readSeq, ih rest (a + 1) h]

/-- All of a whole framebuffer, read in order. -/
theorem Memory.readSeq_of_covers (m : Memory) (n : Nat) (h : m.covers n) : m.readSeq 0 n = some (m.map Prod.snd) :=
  Memory.readSeq_range' m 0 n (by rw [h, List.range_eq_range'])

/-- A whole framebuffer's bytes in order are its bytes read one by one. -/
theorem Memory.getElem?_bytes (m : Memory) (n i : Nat) (h : m.covers n) : (m.map Prod.snd)[i]? = m.read i := by
  have key : ∀ (r : Memory) (j k : Nat), r.map Prod.fst = List.range' j k → ∀ x, (r.map Prod.snd)[x]? = r.read (j + x) := by
    intro r
    induction r with
    | nil => simp
    | cons c rest ih =>
      obtain ⟨a, v⟩ := c
      intro j k hk x
      cases k with
      | zero => simp at hk
      | succ k =>
        simp only [List.map_cons, List.range'_succ, List.cons.injEq] at hk
        obtain ⟨rfl, hk⟩ := hk
        cases x with
        | zero => simp [Memory.read_cons]
        | succ x =>
          rw [Memory.read_cons, if_neg (by omega), List.map_cons, List.getElem?_cons_succ, ih (a + 1) k hk x]
          congr 1; omega
  simpa using key m 0 n (by rw [h, List.range_eq_range']) i

theorem Memory.length_of_covers (m : Memory) (n : Nat) (h : m.covers n) : m.length = n := by
  simpa using congrArg List.length h

end Sys2Proof.Machine
end

