-- ==== Sys2Proof/Laws/Surface.lean ====
section
/-! SUPPORT. Laws/Surface.lean: what the rotation mapping, the framebuffer operations, FLUSH and the reset pulse can do. -/

namespace Sys2Proof.Machine

/-! ## The rotation mapping -/

/-- What Map gives is a framebuffer position (20_memory.md R54). -/
theorem pixelMap_bounds {size : SizeCode} {rot : Rotation} {x y idx bit : Nat}
    (h : pixelMap size rot x y = some (idx, bit)) : idx < size.fbBytes ∧ bit < 8 := by
  simp only [pixelMap, pageHeight] at h
  split at h <;> split at h
  all_goals first
    | (split at h
       · simp only [Option.some.injEq, Prod.mk.injEq] at h
         obtain ⟨rfl, rfl⟩ := h
         exact ⟨by assumption, Nat.mod_lt _ (by omega)⟩
       · simp at h)
    | simp at h

/-- Setting or clearing bit k of a byte changes bit k and no other (R51, R151). -/
theorem getLsbD_writeBit (b : Byte) (k : Nat) (on : Bool) (j : Nat) (hk : k < 8) :
    (writeBit b k on).getLsbD j = if j = k then on else b.getLsbD j := by
  by_cases hj : j < 8
  · by_cases h : j = k
    · subst h
      cases on <;> simp [writeBit, hj]
    · rw [if_neg h]
      cases on <;> simp [writeBit, hj] <;> omega
  · rw [BitVec.getLsbD_of_ge _ _ (by omega), BitVec.getLsbD_of_ge _ _ (by omega), if_neg (by omega)]

/-! ## Framebuffer bodies -/

/-- SET_PIXEL's body returns the state with at most one existing byte written. -/
theorem setPixelBody_cases (x y : Nat) (on : Bool) (s : State) :
    (setPixelBody x y on s = .done s ∧ pixelMap s.size s.rot x y = none) ∨
    (∃ idx bit b, pixelMap s.size s.rot x y = some (idx, bit) ∧ s.fb.read idx = some b ∧
      setPixelBody x y on s = .done (s.setFb (s.fb.write idx (writeBit b bit on)))) ∨
    (∃ idx bit, pixelMap s.size s.rot x y = some (idx, bit) ∧ s.fb.read idx = none ∧
      setPixelBody x y on s = .stuck .framebufferAbsent) := by
  unfold setPixelBody
  split
  · exact .inl ⟨rfl, by assumption⟩
  · split
    · exact .inr (.inl ⟨_, _, _, by assumption, by assumption, rfl⟩)
    · exact .inr (.inr ⟨_, _, by assumption, by assumption, rfl⟩)

/-- With its framebuffer present, SET_PIXEL's body ends, and the framebuffer is still whole. -/
theorem setPixelBody_covers (x y : Nat) (on : Bool) (s : State) (h : s.fb.covers s.size.fbBytes) :
    ∃ m, setPixelBody x y on s = .done (s.setFb m) ∧ m.covers s.size.fbBytes := by
  rcases setPixelBody_cases x y on s with ⟨hb, -⟩ | ⟨idx, bit, b, hm, hr, hb⟩ | ⟨idx, bit, hm, hr, hb⟩
  · exact ⟨s.fb, hb, h⟩
  · exact ⟨_, hb, Memory.covers_write _ _ _ _ h (pixelMap_bounds hm).1⟩
  · have := (Memory.read_isSome_of_covers s.fb _ idx h).2 (pixelMap_bounds hm).1
    simp [hr] at this

/-- Whatever its operands, SET_PIXEL's body changes nothing but the framebuffer, and keeps it whole if it was. -/
theorem setPixelBody_leaves (x y : Nat) (on : Bool) (s : State) :
    (setPixelBody x y on s).Leaves fun t =>
      ∃ m, t = s.setFb m ∧ (s.fb.covers s.size.fbBytes → m.covers s.size.fbBytes) := by
  rcases setPixelBody_cases x y on s with ⟨hb, -⟩ | ⟨idx, bit, b, hm, hr, hb⟩ | ⟨idx, bit, hm, hr, hb⟩ <;> rw [hb]
  · exact ⟨s.fb, rfl, fun h => h⟩
  · exact ⟨_, rfl, fun h => Memory.covers_write _ _ _ _ h (pixelMap_bounds hm).1⟩
  · trivial

theorem pixelEventBody_leaves (x y : BitVec 32) (c : Bool) (s : State) :
    (pixelEventBody x y c s).Leaves fun t =>
      ∃ m, t = s.setFb m ∧ (s.fb.covers s.size.fbBytes → m.covers s.size.fbBytes) := by
  unfold pixelEventBody
  split
  · exact ⟨s.fb, rfl, fun h => h⟩
  · exact setPixelBody_leaves _ _ _ s

/-- SET_PIXEL's body looks at the size, the rotation and the framebuffer only: in a state that agrees in them it writes the same
framebuffer. -/
theorem setPixelBody_congr (x y : Nat) (on : Bool) {s t : State} {m : Memory} (hsize : t.size = s.size) (hrot : t.rot = s.rot)
    (hfb : t.fb = s.fb) (h : setPixelBody x y on s = .done (s.setFb m)) : setPixelBody x y on t = .done (t.setFb m) := by
  rcases setPixelBody_cases x y on s with ⟨hb, hm⟩ | ⟨idx, bit, b, hm, hr, hb⟩ | ⟨idx, bit, hm, hr, hb⟩ <;> rw [hb] at h
  · have hf : s.fb = m := congrArg State.fb (Flow.done.inj h)
    subst hf
    simp only [setPixelBody, hsize, hrot, hm, ← hfb]
    rfl
  · have hf : s.fb.write idx (writeBit b bit on) = m := congrArg State.fb (Flow.done.inj h)
    subst hf
    simp only [setPixelBody, hsize, hrot, hm, hfb, hr]
  · cases h

/-- With its framebuffer present, a pixel event's body ends with the framebuffer whole, and with the same one from every state
that agrees in size, rotation and framebuffer. -/
theorem pixelEventBody_done (x y : BitVec 32) (c : Bool) (s : State) (h : s.fb.covers s.size.fbBytes) :
    ∃ m, m.covers s.size.fbBytes ∧ ∀ t : State, t.size = s.size → t.rot = s.rot → t.fb = s.fb →
      pixelEventBody x y c t = .done (t.setFb m) := by
  unfold pixelEventBody
  split
  · exact ⟨s.fb, h, fun t _ _ hfb => by rw [← hfb]; rfl⟩
  · obtain ⟨m, hb, hm⟩ := setPixelBody_covers x.toNat y.toNat c s h
    exact ⟨m, hm, fun t hs hr hf => setPixelBody_congr _ _ _ hs hr hf hb⟩

theorem clearedFramebuffer_covers (size : SizeCode) : (clearedFramebuffer size).covers size.fbBytes :=
  Memory.covers_fill _ _

theorem freshFramebuffer_covers (size : SizeCode) (n : Nat) : (freshFramebuffer size n).covers size.fbBytes :=
  Memory.covers_fill _ _

/-! ## FLUSH -/

/-- t is s with the window and cursor written, the cursor inside the window, and events the block may emit sent; or t is s. -/
def Flushes (s t : State) : Prop :=
  t = s ∨ ∃ sc sr ec er c r es, t = (((s.setWindow sc sr ec er).setCursor c r).sent es) ∧
    (∀ e ∈ es, e.legal = true) ∧ ((s.setWindow sc sr ec er).setCursor c r).WindowOk

theorem flushBody_leaves (d : FlushDims) (s : State) : (flushBody d s).Leaves (Flushes s) := by
  have key : ∀ sc sr ec er : Byte, ∀ k : State → Flow, (∀ u, (k u).Leaves (Draws u)) →
      ((drawAreaBody sc sr ec er s).andThen k).Leaves (Flushes s) := by
    intro sc sr ec er k hk
    unfold drawAreaBody
    split
    · rename_i h
      have hw : ((s.setWindow sc sr ec er).setCursor sc sr).WindowOk :=
        ⟨h.1, h.2, Nat.le_refl _, h.1, Nat.le_refl _, h.2, by simp⟩
      have hd : ∀ t, Draws ((s.setWindow sc sr ec er).setCursor sc sr) t → Flushes s t := by
        rintro t ⟨c, r, es, rfl, hes, hwin⟩
        exact .inr ⟨sc, sr, ec, er, c, r, es, rfl, hes, hwin hw⟩
      exact Flow.Leaves.andThen (P := Draws ((s.setWindow sc sr ec er).setCursor sc sr))
        ((sendDrawAddress_sends _).mono fun t ht => Draws.of_sends ht)
        (fun u hu => (hk u).mono fun t ht => hd t (hu.trans ht)) hd
    · exact .inl rfl
  refine key _ _ _ _ _ fun u => ?_
  split
  · exact drawBody_draws _ u
  · trivial

/-! ## RESET -/

/-- t is s after the pulse's events were logged, whatever the answers. -/
def Pulses (s t : State) : Prop :=
  ∃ a es, t = { s with pin := a, log := s.log ++ es } ∧ ∀ e ∈ es, e.legal = true

theorem Pulses.trans {s t u : State} (h : Pulses s t) (h' : Pulses t u) : Pulses s u := by
  obtain ⟨a, es, rfl, hes⟩ := h
  obtain ⟨a', fs, rfl, hfs⟩ := h'
  refine ⟨a', es ++ fs, by simp, ?_⟩
  intro e he
  rcases List.mem_append.1 he with h | h
  · exact hes e h
  · exact hfs e h

theorem pinSet_pulses (sel : PinSel) (l : Level) (s : State) : (pinSet sel l s).Leaves (Pulses s) :=
  (pinSet_leaves sel l s).mono fun _ ⟨r, a, ht⟩ => ⟨a, [.pin l r], ht, by simp [Event.legal]⟩

theorem delay_pulses (s : State) : (delay resetDelayMs s).Leaves (Pulses s) :=
  ⟨s.pin, [.wait resetDelayMs], rfl, by simp [Event.legal]⟩

theorem Pulses.andThen {s : State} {x : Flow} {k : State → Flow} (h : x.Leaves (Pulses s))
    (hk : ∀ u, (k u).Leaves (Pulses u)) : (x.andThen k).Leaves (Pulses s) :=
  Flow.Leaves.andThen h (fun u hu => (hk u).mono fun _ ht => hu.trans ht) fun _ hu => hu

theorem resetPulse_pulses (sel : PinSel) (s : State) : (resetPulse sel s).Leaves (Pulses s) :=
  Pulses.andThen (pinSet_pulses _ _ s) fun _ =>
    Pulses.andThen (delay_pulses _) fun _ =>
      Pulses.andThen (pinSet_pulses _ _ _) fun _ =>
        Pulses.andThen (delay_pulses _) fun _ =>
          Pulses.andThen (pinSet_pulses _ _ _) fun _ => delay_pulses _

end Sys2Proof.Machine
end

