-- ==== Sys2Proof/Laws/Exec.lean ====
section
/-! SUPPORT. Laws/Exec.lean: once and for all instructions, what an execution that answers a next state can have done. A proof
about every instruction cases on `exec_cases` and never unfolds a meaning. -/

namespace Sys2Proof.Machine

/-- What the body of an instruction can make of s before its outcome is recorded, whatever the agents answer. -/
def BodyLeaves (i : Instr) (s u : State) : Prop :=
  match i with
  | .clockDiv _ | .contrast _ | .precharge _ | .scrollOn | .scrollOff | .cmdDisplayOn | .cmdDisplayOff | .segRemap1
  | .segRemap0 | .comReverse | .comNormal | .pageStart _ | .colLow _ | .colHigh _ | .displayOn _ | .setContrast _ =>
    Sends s u
  | .connect cfg => s.mode = .none ∧ u = s.openSession cfg
  | .withSize _ _ | .withRotation _ _ | .getDimensions => u = s
  | .reset _ => s.mode = .graphics ∧ ∃ v p, Pulses s v ∧ u = v.setPhase p
  | .init | .initRaw => ∃ v p, Sends s v ∧ u = v.setPhase p
  | .clear => s.mode = .graphics ∧ u = s.setFb (clearedFramebuffer s.size)
  | .setPixel _ _ _ | .pixelEvent _ _ _ =>
    s.mode = .graphics ∧ ∃ m, u = s.setFb m ∧ (s.fb.covers s.size.fbBytes → m.covers s.size.fbBytes)
  | .flush => Flushes s u
  | .setDrawArea sc sr ec er =>
    u = s ∨ (((s.setWindow sc sr ec er).setCursor sc sr).WindowOk ∧ Sends ((s.setWindow sc sr ec er).setCursor sc sr) u)
  | .draw _ => Draws s u
  | .setRotation rot => Sends (s.setRot rot) u
  | .release => u = (s.setMode .raw).setFb []
  | .enterGraphics => u = ((s.setMode .graphics).setFb (freshFramebuffer s.size s.fresh)).drawFree s.size.fbBytes
  | .unwrap => u = s.endSession

/-- A body whose lifecycle tag moves at its end. -/
theorem movePhase_leaves {P : State → Prop} {x : Flow} {onOk onErr : Phase → Phase} (h : x.Leaves P) :
    (x.movePhase onOk onErr).Leaves fun t => ∃ v p, P v ∧ t = v.setPhase p := by
  cases x with
  | done s => exact ⟨s, _, h, rfl⟩
  | failed e s => exact ⟨s, _, h, rfl⟩
  | raised r s => exact ⟨s, s.phase, h, rfl⟩
  | stuck f => trivial

/-- A controller command is one call of an encoder function. -/
theorem exec_command {i : Instr} (h : i.isCommand = true) (s : State) :
    ∃ send, exec i s = runCommand send s ∧ ∀ u, (send u).Leaves (Sends u) := by
  cases i <;> first
    | exact ⟨_, rfl, sendClockDiv_sends _⟩ | exact ⟨_, rfl, sendContrast_sends _⟩ | exact ⟨_, rfl, sendPrecharge_sends _⟩
    | exact ⟨_, rfl, sendScroll_sends _⟩ | exact ⟨_, rfl, sendDisplay_sends _⟩ | exact ⟨_, rfl, sendSegRemap_sends _⟩
    | exact ⟨_, rfl, sendComDir_sends _⟩ | exact ⟨_, rfl, sendPageStart_sends _⟩ | exact ⟨_, rfl, sendColLow_sends _⟩
    | exact ⟨_, rfl, sendColHigh_sends _⟩ | simp [Instr.isCommand, encode, hostBytes] at h

/-- A well-formed controller command writes exactly its own bytes. -/
theorem exec_command_bytes {i : Instr} (hw : i.wf = true) (h : i.isCommand = true) (s : State) :
    exec i s = runCommand (cmdWrite (encode i).bytes) s := by
  cases i <;> first | (simp [Instr.isCommand, encode, hostBytes] at h; done) | rfl | skip
  case pageStart p =>
    have hs : sendPageStart p = cmdWrite [0xB0 + BitVec.ofNat 8 p] :=
      funext fun u => sendPageStart_ok p u (of_decide_eq_true hw)
    show runCommand (sendPageStart p) s = _
    rw [hs]; rfl

/-- A host operation that answers a next state was refused, or its body ran and its outcome was recorded. -/
theorem gate_cases {i : Instr} {op : HostOp} {v : OpValue} {x : Flow} {P : State → Prop} {s t : State}
    (h : gate op s (conclude v x) = .next t) (hx : x.Leaves P) (hb : ∀ u, admits op s.mode = true → P u → BodyLeaves i s u) :
    (∃ r, t = s.setRefused r) ∨ ∃ u, BodyLeaves i s u ∧ ((∃ r, t = u.returned r) ∨ ∃ r, t = u.setFault r) := by
  rcases gate_next h with ⟨ha, h⟩ | ⟨-, rfl⟩
  · obtain ⟨u, hu, hr⟩ := conclude_leaves hx h
    exact .inr ⟨u, hb u ha hu, hr⟩
  · exact .inl ⟨_, rfl⟩

/-- Everything an instruction that answers a next state can have done: it was refused and changed nothing else, or its body
left a state `BodyLeaves` allows and its result or a fault was recorded. -/
theorem exec_cases {i : Instr} {s t : State} (h : exec i s = .next t) :
    (∃ r, t = s.setRefused r) ∨ ∃ u, BodyLeaves i s u ∧ ((∃ r, t = u.returned r) ∨ ∃ r, t = u.setFault r) := by
  by_cases hc : i.isCommand = true
  · obtain ⟨send, hs, hl⟩ := exec_command hc s
    by_cases hm : s.mode = .none
    · rw [hs, runCommand_noSession hm] at h; cases h
    · rw [hs, runCommand_session hm] at h
      obtain ⟨u, hu, hr⟩ := conclude_leaves (hl s) h
      refine .inr ⟨u, ?_, hr⟩
      cases i <;> first | exact hu | simp [Instr.isCommand, encode, hostBytes] at hc
  · cases i <;> try (exact absurd rfl hc)
    case connect => exact gate_cases h (P := (· = _)) (by exact rfl) fun _ ha hu => ⟨by simpa [admits] using ha, hu⟩
    case withSize cfg size =>
      exact gate_cases h (P := (· = _)) (by exact rfl) fun _ _ hu => hu
    case withRotation cfg rot =>
      exact gate_cases h (P := (· = _)) (by exact rfl) fun _ _ hu => hu
    case reset pin =>
      exact gate_cases h (movePhase_leaves (resetPulse_pulses pin s)) fun _ ha hu => ⟨by simpa [admits] using ha, hu⟩
    case init => exact gate_cases h (movePhase_leaves (initSequence_sends s)) fun _ _ hu => hu
    case initRaw => exact gate_cases h (movePhase_leaves (initSequence_sends s)) fun _ _ hu => hu
    case clear => exact gate_cases h (P := (· = _)) (by exact rfl) fun _ ha hu => ⟨by simpa [admits] using ha, hu⟩
    case setPixel =>
      exact gate_cases h (setPixelBody_leaves _ _ _ s) fun _ ha hu => ⟨by simpa [admits] using ha, hu⟩
    case pixelEvent =>
      exact gate_cases h (pixelEventBody_leaves _ _ _ s) fun _ ha hu => ⟨by simpa [admits] using ha, hu⟩
    case flush => exact gate_cases h (flushBody_leaves _ s) fun _ _ hu => hu
    case setDrawArea => exact gate_cases h (drawAreaBody_leaves _ _ _ _ s) fun _ _ hu => hu
    case draw => exact gate_cases h (drawBody_draws _ s) fun _ _ hu => hu
    case setRotation rot => exact gate_cases h (sendRemap_sends rot (s.setRot rot)) fun _ _ hu => hu
    case getDimensions => exact gate_cases h (P := (· = _)) (by exact rfl) fun _ _ hu => hu
    case displayOn on => exact gate_cases h (sendDisplay_sends on s) fun _ _ hu => hu
    case setContrast v => exact gate_cases h (sendContrast_sends v s) fun _ _ hu => hu
    case release => exact gate_cases h (P := (· = _)) (by exact rfl) fun _ _ hu => hu
    case enterGraphics => exact gate_cases h (P := (· = _)) (by exact rfl) fun _ _ hu => hu
    case unwrap => exact gate_cases h (P := (· = _)) (by exact rfl) fun _ _ hu => hu

/-- What the entry a step ran can have been, when it answers a next state: an operation executed or refused as unknown, the drop
of the surface, a producer whose next event was executed, or a producer that yielded no more. -/
theorem runEntry_cases {e : Entry} {s t : State} (h : runEntry e s = .next t) :
    (∃ r, t = s.setRefused r) ∨ (∃ i, exec i s = .next t) ∨ t = s.endSession.skipEntry ∨
      (∃ i es, exec i (s.splice es) = .next t) ∨ t = s.splice [] := by
  cases e with
  | operation i => exact .inr (.inl ⟨i, h⟩)
  | unassigned c => exact .inl ⟨_, by simpa [runEntry, runUnassigned, refuseOp] using h.symm⟩
  | dropSurface => exact .inr (.inr (.inl (by simpa [runEntry, runDrop] using h.symm)))
  | pixelSource src =>
    simp only [runEntry, runPixelSource] at h
    split at h
    · exact .inr (.inr (.inr (.inl ⟨_, _, h⟩)))
    · exact .inr (.inr (.inr (.inr (by simpa using h.symm))))

/-- A step that answers a next state ran an entry of the program, from a state that has neither a fault nor a refusal
recorded. -/
theorem step_cases {s t : State} (h : step s = .next t) :
    s.fault = none ∧ s.refused = none ∧ ∃ e, s.program[s.pos]? = some e ∧ runEntry e s = .next t := by
  unfold step at h
  cases hf : s.fault with
  | some r => simp [haltOf, hf] at h
  | none =>
    cases hr : s.refused with
    | some r => simp [haltOf, hf, hr] at h
    | none =>
      refine ⟨rfl, rfl, ?_⟩
      simp only [haltOf, hf, hr] at h
      split at h
      · cases h
      · exact ⟨_, ‹_›, h⟩

/-! ## Producers of pixel events -/

/-- In GRAPHICS with the framebuffer present, a pixel event completes, and does the same whatever program holds it. -/
theorem execPixelEvent_next (e : PixelEvent) {s : State} (hm : s.mode = .graphics) (hc : s.fb.covers s.size.fbBytes) :
    ∃ m, m.covers s.size.fbBytes ∧ ∀ p : List Entry,
      exec (eventInstr e) { s with program := p } = .next ((({ s with program := p } : State).setFb m).returned (.ok .unit)) := by
  obtain ⟨m, hcov, hb⟩ := pixelEventBody_done e.1 e.2.1 e.2.2 s hc
  refine ⟨m, hcov, fun p => ?_⟩
  show gate .pixelEvent _ (conclude .unit (pixelEventBody e.1 e.2.1 e.2.2 _)) = _
  rw [gate_yes (by simp [admits, hm]), hb { s with program := p } rfl rfl rfl]
  rfl

@[simp] theorem nextEvent_queue (e : PixelEvent) (es cycle : List PixelEvent) :
    nextEvent ⟨e :: es, cycle⟩ = some (e, ⟨es, cycle⟩) := rfl
@[simp] theorem nextEvent_cycle (e : PixelEvent) (es : List PixelEvent) :
    nextEvent ⟨[], e :: es⟩ = some (e, ⟨es, e :: es⟩) := rfl
@[simp] theorem nextEvent_ended : nextEvent ⟨[], []⟩ = none := rfl

/-- A producer with a cycle always yields an event, and keeps its cycle. -/
theorem nextEvent_of_cycle {src : PixelSource} (h : src.cycle ≠ []) :
    ∃ e rest, nextEvent src = some (e, rest) ∧ rest.cycle = src.cycle := by
  obtain ⟨queue, cycle⟩ := src
  cases queue with
  | cons e es => exact ⟨_, _, rfl, rfl⟩
  | nil =>
    cases cycle with
    | cons e es => exact ⟨_, _, rfl, rfl⟩
    | nil => exact absurd rfl h

/-- The entries put in the place of the one at the position stand there, one after another. -/
theorem splice_getElem? {s : State} {e : Entry} (h : s.program[s.pos]? = some e) (es : List Entry) (k : Nat)
    (hk : k < es.length) : (s.splice es).program[s.pos + k]? = es[k]? := by
  have hp : s.pos < s.program.length := (List.getElem?_eq_some_iff.mp h).1
  have hl : (s.program.take s.pos).length = s.pos := by simp; omega
  rw [State.splice_program, List.append_assoc, List.getElem?_append_right (by omega), hl,
    List.getElem?_append_left (by omega)]
  congr 1
  omega

end Sys2Proof.Machine
end

