-- ==== Sys2Proof/Laws/PerInstr.lean ====
section
/-! SUPPORT. Laws/PerInstr.lean: facts about every instruction as syntax, one lemma per constructor. The family FirstByte: a
well-formed instruction's bytes begin with a byte its own code space lists (spec/30_encoding.md R74, R77). -/

namespace Sys2Proof.Laws

/-- The bytes of a well-formed instruction begin with a byte that its code space lists. -/
def FirstByte.Statement (i : Instr) : Prop :=
  i.wf = true → ∃ b rest, (encode i).bytes = b :: rest ∧
    (match (encode i).space with
      | .controllerCommand => (commandOf b).isSome
      | .hostOperation => (hostOpOf b).isSome) = true

theorem FirstByte.clockDiv (v : Byte) : FirstByte.Statement (.clockDiv v) := fun _ => ⟨_, _, rfl, rfl⟩

theorem FirstByte.contrast (v : Byte) : FirstByte.Statement (.contrast v) := fun _ => ⟨_, _, rfl, rfl⟩

theorem FirstByte.precharge (v : Byte) : FirstByte.Statement (.precharge v) := fun _ => ⟨_, _, rfl, rfl⟩

theorem FirstByte.scrollOn : FirstByte.Statement (.scrollOn) := fun _ => ⟨_, _, rfl, rfl⟩

theorem FirstByte.scrollOff : FirstByte.Statement (.scrollOff) := fun _ => ⟨_, _, rfl, rfl⟩

theorem FirstByte.cmdDisplayOn : FirstByte.Statement (.cmdDisplayOn) := fun _ => ⟨_, _, rfl, rfl⟩

theorem FirstByte.cmdDisplayOff : FirstByte.Statement (.cmdDisplayOff) := fun _ => ⟨_, _, rfl, rfl⟩

theorem FirstByte.segRemap1 : FirstByte.Statement (.segRemap1) := fun _ => ⟨_, _, rfl, rfl⟩

theorem FirstByte.segRemap0 : FirstByte.Statement (.segRemap0) := fun _ => ⟨_, _, rfl, rfl⟩

theorem FirstByte.comReverse : FirstByte.Statement (.comReverse) := fun _ => ⟨_, _, rfl, rfl⟩

theorem FirstByte.comNormal : FirstByte.Statement (.comNormal) := fun _ => ⟨_, _, rfl, rfl⟩

theorem FirstByte.pageStart (p : Nat) : FirstByte.Statement (.pageStart p) := by
  intro h
  have hp : p ≤ 7 := of_decide_eq_true h
  interval_cases p <;> exact ⟨_, _, rfl, rfl⟩

theorem FirstByte.colLow (n : BitVec 4) : FirstByte.Statement (.colLow n) := fun _ =>
  ⟨_, _, rfl, (by decide : ∀ n : BitVec 4, (commandOf (0x00 + n.setWidth 8)).isSome = true) n⟩

theorem FirstByte.colHigh (n : BitVec 4) : FirstByte.Statement (.colHigh n) := fun _ =>
  ⟨_, _, rfl, (by decide : ∀ n : BitVec 4, (commandOf (0x10 + n.setWidth 8)).isSome = true) n⟩

theorem FirstByte.connect (cfg : PanelConfig) : FirstByte.Statement (.connect cfg) := fun _ => ⟨_, _, rfl, rfl⟩

theorem FirstByte.withSize (cfg : PanelConfig) (size : SizeCode) : FirstByte.Statement (.withSize cfg size) := fun _ => ⟨_, _, rfl, rfl⟩

theorem FirstByte.withRotation (cfg : PanelConfig) (rot : Rotation) : FirstByte.Statement (.withRotation cfg rot) := fun _ => ⟨_, _, rfl, rfl⟩

theorem FirstByte.reset (pin : PinSel) : FirstByte.Statement (.reset pin) := fun _ => ⟨_, _, rfl, rfl⟩

theorem FirstByte.init : FirstByte.Statement (.init) := fun _ => ⟨_, _, rfl, rfl⟩

theorem FirstByte.initRaw : FirstByte.Statement (.initRaw) := fun _ => ⟨_, _, rfl, rfl⟩

theorem FirstByte.clear : FirstByte.Statement (.clear) := fun _ => ⟨_, _, rfl, rfl⟩

theorem FirstByte.setPixel (x y : BitVec 32) (value : Byte) : FirstByte.Statement (.setPixel x y value) := fun _ => ⟨_, _, rfl, rfl⟩

theorem FirstByte.pixelEvent (x y : BitVec 32) (color : Bool) : FirstByte.Statement (.pixelEvent x y color) := fun _ => ⟨_, _, rfl, rfl⟩

theorem FirstByte.flush : FirstByte.Statement (.flush) := fun _ => ⟨_, _, rfl, rfl⟩

theorem FirstByte.setDrawArea (startCol startRow endCol endRow : Byte) : FirstByte.Statement (.setDrawArea startCol startRow endCol endRow) := fun _ => ⟨_, _, rfl, rfl⟩

theorem FirstByte.draw (bytes : List Byte) : FirstByte.Statement (.draw bytes) := fun _ => ⟨_, _, rfl, rfl⟩

theorem FirstByte.setRotation (rot : Rotation) : FirstByte.Statement (.setRotation rot) := fun _ => ⟨_, _, rfl, rfl⟩

theorem FirstByte.getDimensions : FirstByte.Statement (.getDimensions) := fun _ => ⟨_, _, rfl, rfl⟩

theorem FirstByte.displayOn (on : Bool) : FirstByte.Statement (.displayOn on) := fun _ => ⟨_, _, rfl, rfl⟩

theorem FirstByte.setContrast (v : Byte) : FirstByte.Statement (.setContrast v) := fun _ => ⟨_, _, rfl, rfl⟩

theorem FirstByte.release : FirstByte.Statement (.release) := fun _ => ⟨_, _, rfl, rfl⟩

theorem FirstByte.enterGraphics : FirstByte.Statement (.enterGraphics) := fun _ => ⟨_, _, rfl, rfl⟩

theorem FirstByte.unwrap : FirstByte.Statement (.unwrap) := fun _ => ⟨_, _, rfl, rfl⟩

end Sys2Proof.Laws
end

