-- ==== Sys2Proof/Machine/Text.lean ====
section
/-! DEFINITION. Machine/Text.lean: the textual syntax of host programs and logs (spec/30_encoding.md R79) and the
pseudo-operations (R80, spec/42_graphics_surface.md R154). It is notation for programs: no meaning depends on it. What R79's
examples leave open of the syntax is said in log 23. -/

namespace Sys2Proof.Machine

/-! ## Pseudo-operations -/

/-- `pixel_events [e1, ..., en]`: the n operations `pixel_event e1` to `pixel_event en`, in that order (R80, R154). -/
def pixelEvents (events : List PixelEvent) : List Entry := events.map pixelEventEntry

/-- `Builder::new().with_rotation(r).connect(t)` is `connect size=128x64, rot=r` (R80). -/
def builderConnect (rot : Rotation) : Instr := .connect (withRotationValue PanelConfig.default rot)

/-! ## Reading a line -/

/-- The pieces of a line: words, and the characters that stand for themselves. -/
inductive Token where
  | word (cs : List Char)
  | comma
  | opened
  | closed
deriving DecidableEq, Repr

/-- A word, where characters were read, in front of the tokens after it. -/
def closeWord (read : List Char) (rest : List Token) : List Token :=
  match read with
  | [] => rest
  | c :: cs => .word (c :: cs).reverse :: rest

/-- The tokens of a line; `read` holds the characters of the word being read, last first. `#` starts a comment. -/
def tokensOf : List Char → List Char → List Token
  | [], read => closeWord read []
  | c :: cs, read =>
    if c = '#' then closeWord read []
    else if c = ' ' then closeWord read (tokensOf cs [])
    else if c = ',' then closeWord read (.comma :: tokensOf cs [])
    else if c = '[' then closeWord read (.opened :: tokensOf cs [])
    else if c = ']' then closeWord read (.closed :: tokensOf cs [])
    else tokensOf cs (c :: read)

/-- The value of a digit in a base. -/
def digitOf? (base : Nat) (c : Char) : Option Nat :=
  let d := if '0' ≤ c ∧ c ≤ '9' then some (c.toNat - 48)
    else if 'a' ≤ c ∧ c ≤ 'f' then some (c.toNat - 87)
    else if 'A' ≤ c ∧ c ≤ 'F' then some (c.toNat - 55)
    else none
  match d with
  | some n => if n < base then some n else none
  | none => none

/-- The number of a string of digits, most significant first, on top of those already read. -/
def digitsOf? (base : Nat) : List Char → Nat → Option Nat
  | [], n => some n
  | c :: cs, n =>
    match digitOf? base c with
    | some d => digitsOf? base cs (n * base + d)
    | none => none

/-- An unsigned number, decimal or with `0x` hexadecimal. -/
def natOf? : List Char → Option Nat
  | [] => none
  | '0' :: 'x' :: c :: cs => digitsOf? 16 (c :: cs) 0
  | c :: cs => digitsOf? 10 (c :: cs) 0

/-- An unsigned number of at most w bits. -/
def unsignedOf? (w : Nat) (cs : List Char) : Option (BitVec w) :=
  match natOf? cs with
  | some n => if n < 2 ^ w then some (BitVec.ofNat w n) else none
  | none => none

/-- A signed 32-bit number in two's complement. -/
def signedOf? : List Char → Option (BitVec 32)
  | '-' :: cs =>
    match natOf? cs with
    | some n => if n ≤ 2 ^ 31 then some (BitVec.ofInt 32 (-(n : Int))) else none
    | none => none
  | cs =>
    match natOf? cs with
    | some n => if n < 2 ^ 31 then some (BitVec.ofNat 32 n) else none
    | none => none

/-- A 1-bit operand: `on` or `off`. -/
def onOf? (cs : List Char) : Option Bool :=
  if cs = "on".toList then some true else if cs = "off".toList then some false else none

/-- A rotation in degrees. -/
def degreesOf? (cs : List Char) : Option Rotation :=
  match natOf? cs with
  | some n =>
    if n = 0 then some .deg0 else if n = 90 then some .deg90 else if n = 180 then some .deg180
    else if n = 270 then some .deg270 else none
  | none => none

/-- The bytes of a bracketed list after its opening bracket, which ends the line. -/
def byteListOf? : List Token → Option (List Byte)
  | [.closed] => some []
  | [.word cs, .closed] =>
    match unsignedOf? 8 cs with
    | some b => some [b]
    | none => none
  | .word cs :: .comma :: rest =>
    match unsignedOf? 8 cs, byteListOf? rest with
    | some b, some bs => some (b :: bs)
    | _, _ => none
  | _ => none

/-- The operands of an operation's line (R79). WITH_SIZE and WITH_ROTATION have no line of their own in R79. -/
def operandsOf? (op : HostOp) (ts : List Token) : Option Instr :=
  match op with
  | .connect => match ts with
    | [.word size, .comma, .word ('r' :: 'o' :: 't' :: '=' :: rot)] =>
      if size = "size=128x64".toList then (degreesOf? rot).map fun r => .connect ⟨.size128x64, r⟩ else none
    | _ => none
  | .withSize => none
  | .withRotation => none
  | .reset => if ts = [] then some (.reset .wired) else none
  | .init => if ts = [] then some .init else none
  | .initRaw => if ts = [] then some .initRaw else none
  | .clear => if ts = [] then some .clear else none
  | .setPixel => match ts with
    | [.word x, .comma, .word y, .comma, .word v] =>
      match unsignedOf? 32 x, unsignedOf? 32 y, unsignedOf? 8 v with
      | some x, some y, some v => some (.setPixel x y v)
      | _, _, _ => none
    | _ => none
  | .pixelEvent => match ts with
    | [.word x, .comma, .word y, .comma, .word c] =>
      match signedOf? x, signedOf? y, onOf? c with
      | some x, some y, some c => some (.pixelEvent x y c)
      | _, _, _ => none
    | _ => none
  | .flush => if ts = [] then some .flush else none
  | .setDrawArea => match ts with
    | [.word sc, .comma, .word sr, .comma, .word ec, .comma, .word er] =>
      match unsignedOf? 8 sc, unsignedOf? 8 sr, unsignedOf? 8 ec, unsignedOf? 8 er with
      | some sc, some sr, some ec, some er => some (.setDrawArea sc sr ec er)
      | _, _, _, _ => none
    | _ => none
  | .draw => match ts with
    | .opened :: rest => (byteListOf? rest).map .draw
    | _ => none
  | .setRotation => match ts with
    | [.word r] => (degreesOf? r).map .setRotation
    | _ => none
  | .getDimensions => if ts = [] then some .getDimensions else none
  | .displayOn => match ts with
    | [.word c] => (onOf? c).map .displayOn
    | _ => none
  | .setContrast => match ts with
    | [.word v] => (unsignedOf? 8 v).map .setContrast
    | _ => none
  | .release => if ts = [] then some .release else none
  | .enterGraphics => if ts = [] then some .enterGraphics else none
  | .unwrap => if ts = [] then some .unwrap else none

/-- The mnemonic of an operation, in lower case (R77, R79). -/
def mnemonicOf : HostOp → String
  | .connect       => "connect"
  | .withSize      => "with_size"
  | .withRotation  => "with_rotation"
  | .reset         => "reset"
  | .init          => "init"
  | .initRaw       => "initialize"
  | .clear         => "clear"
  | .setPixel      => "set_pixel"
  | .pixelEvent    => "pixel_event"
  | .flush         => "flush"
  | .setDrawArea   => "set_draw_area"
  | .draw          => "draw"
  | .setRotation   => "set_rotation"
  | .getDimensions => "get_dimensions"
  | .displayOn     => "display_on"
  | .setContrast   => "set_contrast"
  | .release       => "release"
  | .enterGraphics => "enter_graphics"
  | .unwrap        => "unwrap"

/-- One line of a host program (R79); none where it is no operation. -/
def assembleLine (line : String) : Option Instr :=
  match tokensOf line.toList [] with
  | .word m :: ts =>
    match HostOp.all.find? fun op => decide ((mnemonicOf op).toList = m) with
    | some op => operandsOf? op ts
    | none => none
  | _ => none

/-! ## Writing a log -/

/-- A hexadecimal digit. -/
def hexDigit (n : Nat) : Char := if n < 10 then Char.ofNat (48 + n) else Char.ofNat (55 + n)

/-- A byte as `0xHH`. -/
def showByte (b : Byte) : String := "0x" ++ String.ofList [hexDigit (b.toNat / 16), hexDigit (b.toNat % 16)]

/-- Bytes with commas between them. -/
def showBytes : List Byte → String
  | [] => ""
  | [b] => showByte b
  | b :: c :: rest => showByte b ++ ", " ++ showBytes (c :: rest)

/-- An event as a log shows it (R79); its answer is not shown. -/
def showEvent : Event → String
  | .cmd bytes _ => "CMD [" ++ showBytes bytes ++ "]"
  | .data bytes _ => "DATA [" ++ showBytes bytes ++ "]"
  | .pin .high _ => "PIN HIGH"
  | .pin .low _ => "PIN LOW"
  | .wait ms => "WAIT " ++ String.ofList (Nat.toDigits 10 ms)

end Sys2Proof.Machine
end

