-- ==== Sys2Proof/Tests/Slice0.lean ====
section
/-! SUPPORT. Tests/Slice0.lean: the model's own tests. Expected results come from spec/: the encodings of 30_encoding.md R71 and
R77, the vectors of 95_test_vectors.md by their ids, and the rules' own examples. The last part shows, for every obligation with
hypotheses, a concrete state and operands that meet them. -/

namespace Sys2Proof.Machine

/-! ## States the tests start from -/

/-- A GRAPHICS session with a cleared framebuffer (R150). -/
def gfx : State := { State.start with mode := .graphics, fb := clearedFramebuffer .size128x64 }

/-- The same at another rotation. -/
def gfxAt (rot : Rotation) : State := { gfx with rot := rot }

/-- The same with one framebuffer byte written. -/
def gfxByte (i : Nat) (v : Byte) : State := { gfx with fb := gfx.fb.write i v }

/-- A RAW session without a window. -/
def raw : State := { State.start with mode := .raw }

/-- A RAW session with a window and a cursor. -/
def rawAt (sc sr ec er cc cr : Byte) : State :=
  { raw with
    winStartCol := sc, winStartRow := sr, winEndCol := ec, winEndRow := er, winValid := true, curCol := cc, curRow := cr }

/-- An error of the transport, and one of the pin. -/
def terr : TransportErr := ⟨0, rfl⟩
def perr : PinErr := ⟨0, rfl⟩

/-- A transport or pin that answers `Ok` k times, then an error, then `Ok` for ever. -/
def failsAt {ε : Type} (k : Nat) (e : ε) : Agent ε :=
  ⟨List.replicate k (.reply .ok) ++ [.reply (.err e)], .reply .ok⟩

/-- A transport or pin that answers `Ok` k times and then never again. -/
def silentAt (ε : Type) (k : Nat) : Agent ε := ⟨List.replicate k (.reply .ok), .never⟩

/-- The state with a transport that fails at its k-th write. -/
def failing (s : State) (k : Nat) : State := { s with transport := failsAt k terr }

/-- A program of one entry. -/
def runningEntry (s : State) (e : Entry) : State := { s with program := [e] }

/-- A program of one operation. -/
def running (s : State) (i : Instr) : State := runningEntry s (.operation i)

/-- What an execution logs, when it answers a next state. -/
def logOf (x : StepOutcome) : Option (List Event) := (nextOf x).map (·.log)

/-- The log and the result. -/
def logAndResult (x : StepOutcome) : Option (List Event × Option Result) := (nextOf x).map fun t => (t.log, t.result)

/-- The cursor. -/
def cursorOf (x : StepOutcome) : Option (Byte × Byte) := (nextOf x).map fun t => (t.curCol, t.curRow)

/-- The framebuffer byte at an index. -/
def byteOf (i : Nat) (x : StepOutcome) : Option Byte := (nextOf x).bind fun t => t.fb.read i

/-- A list of one-byte command writes, each answered `Ok`. -/
def sentOk (bytes : List Byte) : List Event := bytes.map fun b => .cmd [b] .ok

/-! ## Well-formedness -/

theorem test_wf_refuses_page_8 : (Instr.pageStart 8).wf = false := by decide
theorem test_wf_takes_page_7 : (Instr.pageStart 7).wf = true := by decide

/-! ## Decoding: words written out from R71 and R77 -/

theorem test_decode_clockDiv : decode ⟨.controllerCommand, [0b11010101, 0b10000000]⟩ = .ok (.clockDiv 0x80) := by decide
theorem test_decode_contrast : decode ⟨.controllerCommand, [0b10000001, 0b01111111]⟩ = .ok (.contrast 0x7F) := by decide
theorem test_decode_precharge : decode ⟨.controllerCommand, [0b11011001, 0b11110001]⟩ = .ok (.precharge 0xF1) := by decide
theorem test_decode_scrollOn : decode ⟨.controllerCommand, [0b00101111]⟩ = .ok .scrollOn := by decide
theorem test_decode_scrollOff : decode ⟨.controllerCommand, [0b00101110]⟩ = .ok .scrollOff := by decide
theorem test_decode_cmdDisplayOn : decode ⟨.controllerCommand, [0b10101111]⟩ = .ok .cmdDisplayOn := by decide
theorem test_decode_cmdDisplayOff : decode ⟨.controllerCommand, [0b10101110]⟩ = .ok .cmdDisplayOff := by decide
theorem test_decode_segRemap1 : decode ⟨.controllerCommand, [0b10100001]⟩ = .ok .segRemap1 := by decide
theorem test_decode_segRemap0 : decode ⟨.controllerCommand, [0b10100000]⟩ = .ok .segRemap0 := by decide
theorem test_decode_comReverse : decode ⟨.controllerCommand, [0b11001000]⟩ = .ok .comReverse := by decide
theorem test_decode_comNormal : decode ⟨.controllerCommand, [0b11000000]⟩ = .ok .comNormal := by decide
theorem test_decode_pageStart : decode ⟨.controllerCommand, [0b10110101]⟩ = .ok (.pageStart 5) := by decide
theorem test_decode_colLow : decode ⟨.controllerCommand, [0b00001010]⟩ = .ok (.colLow 0xA) := by decide
theorem test_decode_colHigh : decode ⟨.controllerCommand, [0b00010101]⟩ = .ok (.colHigh 0x5) := by decide
theorem test_decode_connect : decode ⟨.hostOperation, [0x01, 0, 3]⟩ = .ok (.connect ⟨.size128x64, .deg270⟩) := by decide
theorem test_decode_withSize :
    decode ⟨.hostOperation, [0x02, 0, 2, 0]⟩ = .ok (.withSize ⟨.size128x64, .deg180⟩ .size128x64) := by decide
theorem test_decode_withRotation :
    decode ⟨.hostOperation, [0x03, 0, 0, 3]⟩ = .ok (.withRotation ⟨.size128x64, .deg0⟩ .deg270) := by decide
theorem test_decode_reset : decode ⟨.hostOperation, [0x10, 1]⟩ = .ok (.reset .noOp) := by decide
theorem test_decode_init : decode ⟨.hostOperation, [0x11]⟩ = .ok .init := by decide
theorem test_decode_initRaw : decode ⟨.hostOperation, [0x12]⟩ = .ok .initRaw := by decide
theorem test_decode_clear : decode ⟨.hostOperation, [0x20]⟩ = .ok .clear := by decide
theorem test_decode_setPixel :
    decode ⟨.hostOperation, [0x21, 5, 0, 0, 0, 10, 1, 0, 0x80, 1]⟩ = .ok (.setPixel 5 0x8000010A 1) := by decide
theorem test_decode_pixelEvent :
    decode ⟨.hostOperation, [0x22, 0xFD, 0xFF, 0xFF, 0xFF, 5, 0, 0, 0, 1]⟩ = .ok (.pixelEvent (BitVec.ofInt 32 (-3)) 5 true) := by
  decide
theorem test_decode_flush : decode ⟨.hostOperation, [0x23]⟩ = .ok .flush := by decide
theorem test_decode_setDrawArea : decode ⟨.hostOperation, [0x30, 10, 8, 20, 24]⟩ = .ok (.setDrawArea 10 8 20 24) := by decide
theorem test_decode_draw : decode ⟨.hostOperation, [0x31, 1, 2]⟩ = .ok (.draw [1, 2]) := by decide
theorem test_decode_setRotation : decode ⟨.hostOperation, [0x40, 1]⟩ = .ok (.setRotation .deg90) := by decide
theorem test_decode_getDimensions : decode ⟨.hostOperation, [0x41]⟩ = .ok .getDimensions := by decide
theorem test_decode_displayOn : decode ⟨.hostOperation, [0x42, 0]⟩ = .ok (.displayOn false) := by decide
theorem test_decode_setContrast : decode ⟨.hostOperation, [0x43, 0x7F]⟩ = .ok (.setContrast 0x7F) := by decide
theorem test_decode_release : decode ⟨.hostOperation, [0x50]⟩ = .ok .release := by decide
theorem test_decode_enterGraphics : decode ⟨.hostOperation, [0x51]⟩ = .ok .enterGraphics := by decide
theorem test_decode_unwrap : decode ⟨.hostOperation, [0x52]⟩ = .ok .unwrap := by decide

/-- Bytes that are no instruction, each rejected by name (R70, R73, R75, R78; log 21). -/
theorem test_decode_rejects :
    decode ⟨.controllerCommand, [0xB8]⟩ = .error (.notACommand 0xB8) ∧
    decode ⟨.controllerCommand, [0x81]⟩ = .error (.truncatedCommand 0x81) ∧
    decode ⟨.controllerCommand, [0x2E, 0x2F]⟩ = .error .trailingBytes ∧
    decode ⟨.hostOperation, [0x99]⟩ = .error (.unknownOp 0x99) ∧
    decode ⟨.hostOperation, [0x40, 4]⟩ = .error (.malformedOperands 0x40) ∧
    decode ⟨.hostOperation, []⟩ = .error .noBytes := by decide

/-- Opcode table words: a two-byte command, a field, the two DISPLAY_ON rows, an operation with operands. -/
theorem test_table_words :
    decodeTableWord 16 0x80D5 = some (.clockDiv 0x80) ∧ decodeTableWord 8 0xB7 = some (.pageStart 7) ∧
    decodeTableWord 8 0x1F = some (.colHigh 0xF) ∧ decodeTableWord 8 0xAF = some .cmdDisplayOn ∧
    decodeTableWord 8 0x42 = some (.displayOn false) ∧ decodeTableWord 8 0x21 = some (.setPixel 0 0 0) ∧
    decodeTableWord 8 0x01 = some (.connect PanelConfig.default) ∧ decodeTableWord 8 0x31 = some (.draw []) := by decide

/-- Log 3: a byte of both code spaces is read as the host operation. -/
theorem test_table_word_of_both_spaces : decodeTableWord 8 0x10 = some (.reset .wired) := by decide

/-! ## Text (R79, R80) -/

theorem test_text_lines :
    assembleLine "connect size=128x64, rot=270     # CONNECT with the configuration" =
      some (.connect ⟨.size128x64, .deg270⟩) ∧
    assembleLine "set_pixel 0, 0, 1" = some (.setPixel 0 0 1) ∧
    assembleLine "pixel_event -3, 5, on" = some (.pixelEvent (BitVec.ofInt 32 (-3)) 5 true) ∧
    assembleLine "set_draw_area 10, 8, 20, 24      # start_col, start_row, end_col, end_row" =
      some (.setDrawArea 10 8 20 24) ∧
    assembleLine "draw [0x01, 0x02]" = some (.draw [1, 2]) ∧
    assembleLine "set_rotation 90                  # 0, 90, 180 or 270" = some (.setRotation .deg90) ∧
    assembleLine "display_on on" = some (.displayOn true) ∧
    assembleLine "set_contrast 0x7F" = some (.setContrast 0x7F) := by decide +kernel

theorem test_text_bare_lines :
    assembleLine "reset" = some (.reset .wired) ∧ assembleLine "init" = some .init ∧ assembleLine "clear" = some .clear ∧
    assembleLine "get_dimensions" = some .getDimensions ∧ assembleLine "flush" = some .flush ∧
    assembleLine "release" = some .release ∧ assembleLine "enter_graphics" = some .enterGraphics ∧
    assembleLine "unwrap" = some .unwrap ∧ assembleLine "frobnicate" = none := by decide +kernel

theorem test_text_events :
    showEvent (.cmd [0xD5, 0x80] .ok) = "CMD [0xD5, 0x80]" ∧ showEvent (.data [0x01] .ok) = "DATA [0x01]" ∧
    showEvent (.pin .high .ok) = "PIN HIGH" ∧ showEvent (.wait 10) = "WAIT 10" := by decide +kernel

theorem test_pixelEvents : pixelEvents [(3, 5, true), (3, 5, false)] =
    [.operation (.pixelEvent 3 5 true), .operation (.pixelEvent 3 5 false)] ∧
    builderConnect .deg270 = .connect ⟨.size128x64, .deg270⟩ := by decide

/-! ## Controller commands (V-ENC) -/

theorem test_clockDiv : logOf (exec (.clockDiv 0xFF) raw) = some [.cmd [0xD5, 0xFF] .ok] := by decide
theorem test_contrast : logOf (exec (.contrast 0x7F) raw) = some [.cmd [0x81, 0x7F] .ok] := by decide
theorem test_contrast_error : logAndResult (exec (.contrast 0x40) (failing raw 0)) =
    some ([.cmd [0x81, 0x40] (.err terr)], some (.err (.transport terr))) := by decide
theorem test_precharge : logOf (exec (.precharge 0xF1) raw) = some [.cmd [0xD9, 0xF1] .ok] := by decide
theorem test_scrollOn : logOf (exec .scrollOn raw) = some (sentOk [0x2F]) := by decide
theorem test_scrollOff : logOf (exec .scrollOff raw) = some (sentOk [0x2E]) := by decide
theorem test_cmdDisplayOn : logOf (exec .cmdDisplayOn raw) = some (sentOk [0xAF]) := by decide
theorem test_cmdDisplayOff : logOf (exec .cmdDisplayOff raw) = some (sentOk [0xAE]) := by decide
theorem test_segRemap1 : logOf (exec .segRemap1 raw) = some (sentOk [0xA1]) := by decide
theorem test_segRemap0 : logOf (exec .segRemap0 raw) = some (sentOk [0xA0]) := by decide
theorem test_comReverse : logOf (exec .comReverse raw) = some (sentOk [0xC8]) := by decide
theorem test_comNormal : logOf (exec .comNormal raw) = some (sentOk [0xC0]) := by decide
theorem test_pageStart : logOf (exec (.pageStart 7) raw) = some (sentOk [0xB7]) := by decide
theorem test_pageStart_16 :
    (nextOf (exec (.pageStart 16) raw)).map (fun t => (t.log, t.fault)) = some ([], some (.pageOutOfRange 16)) := by decide
theorem test_colLow : logOf (exec (.colLow 0xF) raw) = some (sentOk [0x0F]) := by decide
theorem test_colHigh : logOf (exec (.colHigh 0x7) raw) = some (sentOk [0x17]) := by decide

/-! ## Configuration and modes (V-CFG, V-ERR) -/

theorem test_connect :
    (nextOf (exec (.connect ⟨.size128x64, .deg270⟩) { State.start with winValid := true, phase := .ready })).map
      (fun t => (t.rot, t.mode, t.phase, t.winValid, t.log)) = some (.deg270, .graphics, .unreset, false, []) := by rfl
theorem test_withSize : (nextOf (exec (.withSize ⟨.size128x64, .deg180⟩ .size128x64) raw)).map (·.result) =
    some (some (.ok (.config ⟨.size128x64, .deg180⟩))) := by decide
theorem test_withRotation : (nextOf (exec (.withRotation PanelConfig.default .deg270) raw)).map (·.result) =
    some (some (.ok (.config ⟨.size128x64, .deg270⟩))) := by decide
/-- In NONE anything but CONNECT is refused (R205, R162). -/
theorem test_configuration_in_none :
    (nextOf (exec (.withSize PanelConfig.default .size128x64) State.start)).map (·.refused) =
      some (some (.modeRefused 0x02 .none)) ∧
    (nextOf (exec (.withRotation PanelConfig.default .deg270) State.start)).map (·.refused) =
      some (some (.modeRefused 0x03 .none)) := by decide
theorem test_release :
    (nextOf (exec .release gfx)).map (fun t => (t.mode, t.fb, t.log)) = some (.raw, [], []) := by decide +kernel
theorem test_release_in_raw :
    (nextOf (exec .release raw)).map (·.refused) = some (some (.modeRefused 0x50 .raw)) := by decide
theorem test_enterGraphics :
    (nextOf (exec .enterGraphics raw)).map (fun t => (t.mode, (t.fb.read 1023).isSome, t.fb.read 1024)) =
      some (.graphics, true, none) := by decide +kernel
theorem test_unwrap :
    (nextOf (exec .unwrap raw)).map (fun t => (t.mode, t.fb, t.result)) = some (.none, [], some (.ok .transport)) := by decide
/-- V-ERR-1, V-ERR-2: the mode is checked before the window and its operands. -/
theorem test_mode_is_checked_first :
    (nextOf (exec (.draw [1]) gfx)).map (fun t => (t.refused, t.fault)) = some (some (.modeRefused 0x31 .graphics), none) ∧
    (nextOf (exec (.setDrawArea 5 0 5 8) gfx)).map (fun t => (t.refused, t.fault)) =
      some (some (.modeRefused 0x30 .graphics), none) := by decide +kernel

/-! ## SET_DRAW_AREA (V-SDA) and DRAW (V-DRAW) -/

/-- V-SDA-3, whose start is also V-ADDR-3. -/
theorem test_setDrawArea : (nextOf (exec (.setDrawArea 90 24 96 32) raw)).map (fun t => (t.log, t.curCol, t.curRow)) =
    some (sentOk [0xB3, 0x0A, 0x15], 90, 24) := by decide
/-- V-SDA-9: recorded, then faulted. -/
theorem test_setDrawArea_page_8 : (nextOf (exec (.setDrawArea 0 64 8 72) raw)).map
    (fun t => (t.log, t.fault, t.winEndRow, t.winValid)) = some ([], some (.pageOutOfRange 8), 72, true) := by decide
/-- V-DRAW-9: three page rows at rows 3, 11 and 19. -/
theorem test_draw_wraps :
    (nextOf (exec (.draw [0, 1, 2, 3, 4, 5, 6, 7, 8, 9, 10, 11]) (rawAt 0 3 4 20 0 3))).map (fun t => (t.log, t.curCol, t.curRow)) =
      some (.data [0, 1, 2, 3] .ok :: sentOk [0xB1, 0x00, 0x10] ++ .data [4, 5, 6, 7] .ok :: sentOk [0xB2, 0x00, 0x10] ++
        .data [8, 9, 10, 11] .ok :: sentOk [0xB0, 0x00, 0x10], 0, 3) := by decide
/-- V-DRAW-14, with a row of two columns: the cursor has moved when the address sequence fails. -/
theorem test_draw_error_after_crossing :
    (nextOf (exec (.draw [1, 2, 3]) (failing (rawAt 0 0 2 16 0 0) 1))).map (fun t => (t.log, t.curCol, t.curRow, t.result)) =
      some ([.data [1, 2] .ok, .cmd [0xB1] (.err terr)], 0, 8, some (.err (.transport terr))) := by decide

/-! ## SET_ROTATION, GET_DIMENSIONS, DISPLAY_ON, SET_CONTRAST, INITIALIZE (V-ROT) -/

theorem test_setRotation : (nextOf (exec (.setRotation .deg90) raw)).map (fun t => (t.log, t.rot)) =
    some (sentOk [0xA0, 0xC8], .deg90) := by decide
/-- V-ROT-5. -/
theorem test_setRotation_error : (nextOf (exec (.setRotation .deg180) (failing raw 0))).map (fun t => (t.log, t.rot, t.result)) =
    some ([.cmd [0xA0] (.err terr)], .deg180, some (.err (.transport terr))) := by decide
theorem test_getDimensions : (nextOf (exec .getDimensions { raw with rot := .deg270 })).map (·.result) =
    some (some (.ok (.dimensions 64 128))) := by decide
theorem test_displayOn : logOf (exec (.displayOn false) raw) = some (sentOk [0xAE]) := by decide
theorem test_setContrast : logOf (exec (.setContrast 0x00) raw) = some [.cmd [0x81, 0x00] .ok] := by decide
/-- V-ROT-3 for INITIALIZE. -/
theorem test_initRaw : logOf (exec .initRaw { raw with rot := .deg270 }) =
    some [.cmd [0xD5, Config.initClockDiv] .ok, .cmd [0xA1] .ok, .cmd [0xC0] .ok, .cmd [0x81, Config.initContrast] .ok,
      .cmd [0xD9, Config.initPrecharge] .ok, .cmd [0x2E] .ok, .cmd [0xAF] .ok] := by rfl
/-- V-ROT-6 for INIT. -/
theorem test_init_error : (nextOf (exec .init (failing { gfx with phase := .ready } 2))).map (fun t => (t.log, t.phase)) =
    some ([.cmd [0xD5, Config.initClockDiv] .ok, .cmd [0xA1] .ok, .cmd [0xC8] (.err terr)], .unreset) := by rfl
/-- V-RST-4. -/
theorem test_init_ready : (nextOf (exec .init { gfx with phase := .resetNotInit })).map (·.phase) = some .ready := by rfl

/-! ## SET_PIXEL, PIXEL_EVENT, CLEAR (V-PIX) -/

theorem test_setPixel_90 : byteOf 228 (exec (.setPixel 9 100 1) (gfxAt .deg90)) = some 0x02 := by decide +kernel
theorem test_setPixel_clears : byteOf 133 (exec (.setPixel 5 10 0) (gfxByte 133 0xFF)) = some 0xFB := by decide +kernel
theorem test_pixelEvent : byteOf 3 (exec (.pixelEvent 3 5 true) gfx) = some 0x20 := by decide +kernel
theorem test_pixelEvent_clipped :
    (nextOf (exec (.pixelEvent (BitVec.ofInt 32 (-2147483648)) 0 true) gfx)).map (·.fb) = some gfx.fb := by decide +kernel
theorem test_clear : byteOf 133 (exec .clear (gfxByte 133 0xFF)) = some 0x00 := by decide +kernel

/-! ## FLUSH (V-FL) and RESET (V-RST) -/

/-- V-FL-1: 8 data writes, 9 address sequences, the cursor at (0, 0). -/
theorem test_flush :
    (nextOf (exec .flush (gfxByte 133 0x04))).map
      (fun t => ((dataOf t.log).length, (dataOf t.log)[133]?, t.log.countP isData, t.log.countP isPageStart, t.curCol, t.curRow)) =
    some (1024, some 0x04, 8, 9, 0, 0) := by decide +kernel
/-- V-FL-3: the fault at the eighth crossing. -/
theorem test_flush_270 :
    (nextOf (exec .flush (gfxAt .deg270))).map
      (fun t => ((dataOf t.log).length, t.log.countP isPageStart, t.fault, t.winEndCol, t.winEndRow, t.curRow)) =
    some (512, 8, some (.pageOutOfRange 8), 64, 128, 64) := by decide +kernel
/-- V-RST-1. -/
theorem test_reset : (nextOf (exec (.reset .noOp) gfx)).map (fun t => (t.log, t.phase)) =
    some ([.pin .high .ok, .wait 10, .pin .low .ok, .wait 10, .pin .high .ok, .wait 10], .resetNotInit) := by decide +kernel
/-- V-RST-3. -/
theorem test_reset_error :
    (nextOf (exec (.reset .wired) { gfx with phase := .ready, pin := failsAt 2 perr })).map
      (fun t => (t.log, t.phase, t.result)) =
    some ([.pin .high .ok, .wait 10, .pin .low .ok, .wait 10, .pin .high (.err perr)], .unreset, some (.err (.pin perr))) := by
  decide +kernel

/-! ## Steps from reset -/

/-- V-ERR-4. -/
theorem test_step_unknown : (nextOf (step (State.reset.withFetchWord 8 0x99))).map (·.refused) =
    some (some (.unknownOp 0x99)) := by decide +kernel
/-- A rotation operand 4 forms no operation (R76, R77): nothing is placed. -/
theorem test_word_of_no_operation : (State.reset.withFetchWord 16 0x0440).program = [] ∧
    (State.reset.withFetchWord 16 0x0340).program = [.operation (.setRotation .deg270)] := by decide +kernel
theorem test_step_clear : byteOf 1023 (step (State.reset.withFetchWord 8 0x20)) = some 0x00 := by decide +kernel
theorem test_step_command : logOf (step (State.reset.withFetchWord 16 0x7F81)) = some [.cmd [0x81, 0x7F] .ok] := by decide +kernel
theorem test_step_connect_refused : (nextOf (step (State.reset.withFetchWord 8 0x01))).map (·.refused) =
    some (some (.modeRefused 0x01 .graphics)) := by decide +kernel

/-! ## Entries of the program that are no operation (R154, R162) -/

/-- The drop of the surface, and then CONNECT: the session has ended, nothing was logged or returned. -/
theorem test_dropSurface :
    (nextOf (runSteps 1 { raw with program := [.dropSurface] })).map (fun t => (t.mode, t.log, t.result, t.final)) =
      some (.none, [], none, true) ∧
    (nextOf (runSteps 2 { raw with program := [.dropSurface, .operation (.connect ⟨.size128x64, .deg270⟩)] })).map
      (fun t => (t.mode, t.rot, t.refused, t.pos)) = some (.graphics, .deg270, none, 2) := by decide +kernel
/-- A finite sequence: on, then off, at one pixel, then on at another; the later event overrides, and the run ends. -/
theorem test_pixelSource_ends :
    (nextOf (runSteps 4 (runningEntry gfx (.pixelSource ⟨[(3, 5, true), (4, 5, true), (3, 5, false)], []⟩)))).map
      (fun t => (t.fb.read 3, t.fb.read 4, t.pos, t.final)) = some (some 0x00, some 0x20, 3, true) := by decide +kernel
/-- An infinite sequence, one pixel on and off for ever: each step is an event of it, and the run has no end state (U21). -/
theorem test_pixelSource_never_ends :
    (nextOf (runSteps 4 (runningEntry gfx (.pixelSource ⟨[(4, 5, true)], [(3, 5, true), (3, 5, false)]⟩)))).map
      (fun t => (t.fb.read 3, t.pos, t.final)) = some (some 0x20, 4, false) := by decide +kernel

/-! ## Witnesses: for every obligation with hypotheses, a state and operands that meet all of them -/

theorem gfx_inv : gfx.Inv :=
  ⟨fun _ => clearedFramebuffer_covers _, fun h => absurd rfl h, fun h => by simp [gfx, State.start] at h,
    fun e h => by simp [gfx, State.start] at h⟩

theorem gfxAt_inv (rot : Rotation) : (gfxAt rot).Inv :=
  ⟨fun _ => clearedFramebuffer_covers _, fun h => absurd rfl h, fun h => by simp [gfxAt, gfx, State.start] at h,
    fun e h => by simp [gfxAt, gfx, State.start] at h⟩

theorem start_grants (n : Nat) : State.start.transport.grants n := Agent.grants_alwaysOk n
theorem start_pin_grants (n : Nat) : State.start.pin.grants n := Agent.grants_alwaysOk n

theorem test_witness_DecodeOfEncodeIsTheInstruction : (Instr.pageStart 7).wf = true := by decide

theorem test_witness_CommandStreamSplitsByFirstBytes :
    commandOf 0x81 = some .contrast ∧ commandOf 0x80 = none ∧ commandOf 0x1F = some .colHigh ∧
    ∀ i ∈ [Instr.clockDiv 0x81, .pageStart 7, .colLow 0xF, .precharge 0xD5], i.wf = true ∧ i.isCommand = true := by decide

theorem test_witness_CommandRowsAreDisjoint :
    Command.pageStart.covers 0xB7 = true ∧ Command.pageStart.covers 0xB8 = false ∧
    commandOf 0x00 = some .colLow ∧ commandOf 0x0F = some .colLow ∧ commandOf 0x10 = some .colHigh ∧
    commandOf 0x1F = some .colHigh ∧ commandOf 0xB0 = some .pageStart ∧ commandOf 0xBF = none := by decide

theorem test_witness_StepRunsTheDecodedInstruction :
    (running raw .getDimensions).fault = none ∧ (running raw .getDimensions).refused = none ∧
    (running raw .getDimensions).program[(running raw .getDimensions).pos]? = some (.operation .getDimensions) ∧
    decodeTableWord 8 0x41 = some .getDimensions ∧ decodeTableWord 40 0x1814080A30 = some (.setDrawArea 10 8 20 24) := by
  decide

theorem test_witness_FaultAndRefusedAreSticky :
    ({ raw with fault := some .windowUnset } : State).fault = some .windowUnset ∧
    ({ raw with refused := some (.unknownOp 0x99) } : State).refused = some (.unknownOp 0x99) ∧
    (nextOf (exec .getDimensions { raw with fault := some .windowUnset })).isSome = true ∧
    (nextOf (exec .getDimensions { raw with refused := some (.unknownOp 0x99) })).isSome = true := by decide

theorem test_witness_UnlistedCodeIsRefusedAsUnknownOp :
    (runningEntry raw (.unassigned ⟨0x99, by decide⟩)).fault = none ∧
    (runningEntry raw (.unassigned ⟨0x99, by decide⟩)).refused = none ∧
    (runningEntry raw (.unassigned ⟨0x99, by decide⟩)).program[0]? = some (.unassigned ⟨0x99, by decide⟩) ∧
    (∀ op ∈ HostOp.all, op.code ≠ 0x99) ∧ (∀ op : HostOp, op ∈ HostOp.all) :=
  ⟨rfl, rfl, rfl, by decide, by intro op; cases op <;> decide⟩

theorem test_witness_PositionMovesExactlyOnReturn :
    (nextOf (exec .getDimensions raw)).map (fun t => (t.fault, t.refused, t.pos)) = some (none, none, 1) ∧
    (nextOf (exec (.draw []) raw)).map (fun t => (t.fault, t.pos)) = some (some .windowUnset, 0) ∧
    (nextOf (exec .clear raw)).map (fun t => (t.refused, t.pos)) = some (some (.modeRefused 0x20 .raw), 0) := by decide

theorem test_witness_WrongModeIsRefusedBeforeAnythingElse :
    gfx.mode = .graphics ∧ raw.mode = .raw ∧ State.start.mode = .none := ⟨rfl, rfl, rfl⟩

theorem test_witness_ModelStopsByName :
    raw.program[raw.pos]? = none ∧
    raw.fault = none ∧ raw.refused = none ∧ decode (bytesOfWord 16 0x0440) = .error (.malformedOperands 0x40) ∧
    (∀ c, DecodeError.malformedOperands 0x40 ≠ .unknownOp c) ∧
    (Instr.colHigh 3).isCommand = true ∧ State.start.mode = .none :=
  ⟨by decide, rfl, rfl, by decide, by intro c; simp, by decide, rfl⟩

theorem test_witness_SilentTransportStopsTheOperation :
    ({ raw with transport := silentAt _ 0 } : State).transport.answer 0 = .never ∧ raw.mode = .raw ∧
    ({ gfx with transport := silentAt _ 0 } : State).transport.answer 0 = .never ∧ gfx.mode = .graphics ∧
    (Instr.pageStart 7).isCommand = true ∧ (Instr.pageStart 7).wf = true ∧
    (254 : Byte).toNat < (255 : Byte).toNat ∧ (63 : Byte).toNat / 8 ≤ 7 ∧
    (rawAt 0 0 2 16 1 0).winValid = true ∧ (rawAt 0 0 2 16 1 0).curCol.toNat < (rawAt 0 0 2 16 1 0).winEndCol.toNat ∧
    ({ gfx with pin := silentAt _ 2 } : State).pin.grants 2 ∧ ({ gfx with pin := silentAt _ 2 } : State).pin.answer 2 = .never :=
  ⟨rfl, rfl, rfl, rfl, by decide, by decide, by decide, by decide, by decide, by decide,
    fun k hk => by interval_cases k <;> rfl, rfl⟩

theorem test_witness_ResetHasTheValuesAtConnect :
    State.reset.fb.read 0 = some (Config.freeByte 6) ∧ State.reset.fb.read 1023 = some (Config.freeByte 1029) ∧
    State.reset.fb.read 1024 = none :=
  ⟨by simp [State.reset, freshFramebuffer, Memory.read_fill, SizeCode.fbBytes, SizeCode.width, SizeCode.height],
    by simp [State.reset, freshFramebuffer, Memory.read_fill, SizeCode.fbBytes, SizeCode.width, SizeCode.height],
    by simp [State.reset, freshFramebuffer, Memory.read_fill, SizeCode.fbBytes, SizeCode.width, SizeCode.height]⟩

theorem test_witness_ConfigurationOperationsArePure :
    raw.mode ≠ .none ∧ gfx.mode ≠ .none ∧ State.start.mode = .none := by decide +kernel

theorem test_witness_ConnectOpensASession : State.start.mode = .none ∧ raw.mode ≠ .none := by decide

theorem test_witness_ConnectForgetsTheEarlierSession :
    ∃ s t u : State, s ≠ t ∧ s.mode = .none ∧ t.mode = .none ∧ t.log = s.log ∧ t.pos = s.pos ∧ t.program = s.program ∧
      t.fault = s.fault ∧ t.refused = s.refused ∧ t.transport = s.transport ∧ t.pin = s.pin ∧
      exec (.connect PanelConfig.default) s = .next u :=
  ⟨State.start, { State.start with rot := .deg90, winValid := true, fresh := 9 }, _, by decide, rfl, rfl, rfl, rfl, rfl, rfl,
    rfl, rfl, rfl, rfl⟩

theorem test_witness_CommandSendsExactlyItsEncoding :
    (Instr.pageStart 7).wf = true ∧ (Instr.pageStart 7).isCommand = true ∧ raw.mode ≠ .none ∧
    raw.transport.answer 0 = .reply .ok ∧ (failing raw 0).mode ≠ .none ∧
    (failing raw 0).transport.answer 0 = .reply (.err terr) := by decide

theorem test_witness_CommandBytesAreTheSpecs : raw.mode ≠ .none ∧ raw.transport.answer 0 = .reply .ok := by decide

theorem test_witness_PageStartSendsOrFaults :
    raw.mode ≠ .none ∧ 7 ≤ 7 ∧ raw.transport.answer 0 = .reply .ok ∧
    (failing raw 0).transport.answer 0 = .reply (.err terr) ∧ 8 > 7 := by decide

theorem test_witness_CommandsWriteNoRegister :
    (Instr.pageStart 8).isCommand = true ∧ (nextOf (exec (.pageStart 8) raw)).isSome = true ∧
    (Instr.scrollOff).isCommand = true ∧ (nextOf (exec .scrollOff raw)).isSome = true ∧ Instr.scrollOff.wf = true := by decide

theorem test_witness_SetDrawAreaRecordsTheWindow :
    raw.mode = .raw ∧ ¬((5 : Byte).toNat < (5 : Byte).toNat ∧ (0 : Byte).toNat < (8 : Byte).toNat) ∧
    (0 : Byte).toNat < (8 : Byte).toNat ∧ (64 : Byte).toNat < (72 : Byte).toNat ∧ (64 : Byte).toNat / 8 > 7 ∧
    (63 : Byte).toNat / 8 ≤ 7 ∧ raw.transport.grants 3 ∧
    (failing raw 2).transport.grants 2 ∧ (failing raw 2).transport.answer 2 = .reply (.err terr) :=
  ⟨rfl, by decide, by decide, by decide, by decide, by decide, start_grants 3,
    fun k hk => by have : k = 0 ∨ k = 1 := by omega
                   rcases this with rfl | rfl <;> rfl, by decide⟩

theorem test_witness_DrawWithoutAWindowFaults : raw.mode = .raw ∧ raw.winValid = false := ⟨rfl, rfl⟩

/-- The last column of the row is left free, or the row is empty of bytes. -/
theorem test_witness_DrawShortChunkStaysInTheRow :
    (rawAt 0 0 4 8 1 0).mode = .raw ∧ (rawAt 0 0 4 8 1 0).winValid = true ∧
    (rawAt 0 0 4 8 1 0).curCol.toNat + [(1 : Byte), 2].length < (rawAt 0 0 4 8 1 0).winEndCol.toNat ∧
    (rawAt 0 0 4 8 1 0).curCol.toNat + ([] : List Byte).length < (rawAt 0 0 4 8 1 0).winEndCol.toNat ∧
    (rawAt 0 0 4 8 1 0).transport.answer 0 = .reply .ok := by decide

/-- V-DRAW-3's wrap, its move to the next row, and V-DRAW-11's fault, each with a row of two columns. -/
theorem test_witness_DrawFullRowCrosses :
    ∀ c ∈ [(rawAt 0 0 2 8 0 0, (0 : Byte)), (rawAt 0 0 2 16 0 0, 8), (rawAt 0 56 2 72 0 56, 64)],
      c.1.mode = .raw ∧ c.1.winValid = true ∧ c.1.curCol.toNat + [(1 : Byte), 2].length = c.1.winEndCol.toNat ∧
      (c.1.curRow.toNat + 8 ≥ c.1.winEndRow.toNat → c.2 = c.1.winStartRow) ∧
      (c.1.curRow.toNat + 8 < c.1.winEndRow.toNat → c.2.toNat = c.1.curRow.toNat + 8) ∧
      c.1.transport.answer 0 = .reply .ok ∧ c.1.transport.answer 3 = .reply .ok := by decide

theorem test_witness_DrawFullRowCrosses_grants : (rawAt 0 56 2 72 0 56).transport.grants 4 ∧ (64 : Byte).toNat / 8 > 7 :=
  ⟨start_grants 4, by decide⟩

theorem test_witness_DrawErrorsAreExact :
    (rawAt 0 0 2 16 0 0).mode = .raw ∧ (rawAt 0 0 2 16 0 0).winValid = true ∧
    (rawAt 0 0 2 16 0 0).curCol.toNat < (rawAt 0 0 2 16 0 0).winEndCol.toNat ∧
    (failing (rawAt 0 0 2 16 0 0) 0).transport.answer 0 = .reply (.err terr) ∧
    (rawAt 0 0 2 16 0 0).winEndCol.toNat - (rawAt 0 0 2 16 0 0).curCol.toNat ≤ [(1 : Byte), 2].length ∧
    pageOf (crossedRow (rawAt 0 0 2 16 0 0)) ≤ 7 ∧
    (failing (rawAt 0 0 2 16 0 0) 1).transport.answer 0 = .reply .ok ∧
    (failing (rawAt 0 0 2 16 0 0) 1).transport.answer 1 = .reply (.err terr) := by decide

/-- For the general clause: the low-nibble command of the first crossing fails, and then a later chunk. -/
theorem test_witness_DrawErrorsAreExact_later :
    (rawAt 0 0 2 16 0 0).WindowOk ∧
    (∃ t es, exec (.draw [1, 2, 3]) (failing (rawAt 0 0 2 16 0 0) 4).granted = .next t ∧
      t.log = (failing (rawAt 0 0 2 16 0 0) 4).log ++ es ∧ 4 < es.length ∧
      (es.take 3).countP isPageStart = 1 ∧ (es.take 5).countP isPageStart = 1) ∧
    (failing (rawAt 0 0 2 16 0 0) 2).transport.grants 2 ∧
    (failing (rawAt 0 0 2 16 0 0) 2).transport.answer 2 = .reply (.err terr) ∧
    (failing (rawAt 0 0 2 16 0 0) 4).transport.grants 4 ∧
    (failing (rawAt 0 0 2 16 0 0) 4).transport.answer 4 = .reply (.err terr) :=
  ⟨⟨by decide, by decide, by decide, by decide, by decide, by decide, by decide⟩,
    ⟨_, _, rfl, rfl, by decide, by decide, by decide⟩,
    fun k hk => by interval_cases k <;> rfl, rfl, fun k hk => by interval_cases k <;> rfl, rfl⟩

/-- The window of V-DRAW-9, whose rows 3, 11 and 19 the encoder can send, for any number of bytes. -/
theorem window_witness (n : Nat) :
    (rawAt 0 3 4 20 2 11).mode = .raw ∧ (rawAt 0 3 4 20 2 11).winValid = true ∧ (rawAt 0 3 4 20 2 11).WindowOk ∧
    windowFits (rawAt 0 3 4 20 2 11) ∧ (rawAt 0 3 4 20 2 11).transport.grants (4 * n) :=
  ⟨rfl, rfl, ⟨by decide, by decide, by decide, by decide, by decide, by decide, by decide⟩, by unfold windowFits; decide, start_grants _⟩

theorem test_witness_DrawSendsExactlyItsBytes :
    (rawAt 0 3 4 20 2 11).WindowOk ∧ windowFits (rawAt 0 3 4 20 2 11) ∧ (rawAt 0 3 4 20 2 11).transport.grants (4 * 7) :=
  (window_witness 7).2.2

theorem test_witness_DrawMovesTheCursorRoundTheWindow :
    (rawAt 0 3 4 20 2 11).WindowOk ∧ windowFits (rawAt 0 3 4 20 2 11) ∧ (rawAt 0 3 4 20 2 11).transport.grants (4 * 2) ∧
    (nextOf (exec (.draw [1, 2]) (rawAt 0 3 4 20 2 11))).isSome = true ∧
    [(1 : Byte)].length < roomLeft (rawAt 0 3 4 20 2 11) ∧ ¬[(1 : Byte), 2].length < roomLeft (rawAt 0 3 4 20 2 11) :=
  ⟨(window_witness 2).2.2.1, (window_witness 2).2.2.2.1, start_grants _, by decide, by decide, by decide⟩

theorem test_witness_DrawLandsInsideTheWindow :
    ∃ t es, exec (.draw [1, 2]) (rawAt 0 3 4 20 2 11) = .next t ∧ t.log = (rawAt 0 3 4 20 2 11).log ++ es ∧
      (rawAt 0 3 4 20 2 11).WindowOk ∧ windowFits (rawAt 0 3 4 20 2 11) :=
  ⟨_, _, rfl, rfl, (window_witness 2).2.2.1, (window_witness 2).2.2.2.1⟩

/-- With `window_witness 7`: the DRAW answers a next state. -/
theorem test_witness_DrawCountsAreTheSpecs :
    ∃ t es, exec (.draw [1, 2, 3, 4, 5, 6, 7]) (rawAt 0 3 4 20 2 11) = .next t ∧
      t.log = (rawAt 0 3 4 20 2 11).log ++ es := ⟨_, _, rfl, rfl⟩

theorem test_witness_DrawWritesOnlyTheCursor : (nextOf (exec (.draw [1, 2, 3]) (rawAt 0 3 4 20 2 11))).isSome = true := by decide

theorem test_witness_SetRotationSendsTheRemapPair :
    raw.mode ≠ .none ∧ raw.transport.grants 2 ∧ (failing raw 0).transport.answer 0 = .reply (.err terr) ∧
    (failing raw 1).transport.answer 0 = .reply .ok ∧ (failing raw 1).transport.answer 1 = .reply (.err terr) :=
  ⟨by decide, start_grants 2, by decide, by decide, by decide⟩

theorem test_witness_GetDimensionsFollowsTheRotation :
    (gfxAt .deg180).mode ≠ .none ∧ (gfxAt .deg180).rot = .deg180 ∧ raw.mode ≠ .none ∧
    ({ raw with rot := .deg90 } : State).rot = .deg90 := by decide +kernel

theorem test_witness_PassThroughsSendOneCommand :
    raw.mode ≠ .none ∧ raw.transport.answer 0 = .reply .ok ∧
    (failing raw 0).transport.answer 0 = .reply (.err terr) := by decide

theorem test_witness_InitializationSendsTheSequence :
    raw.mode = .raw ∧ gfx.mode = .graphics ∧ raw.transport.grants 7 ∧ gfx.transport.grants 7 ∧
    (failing raw 0).transport.grants 0 ∧ (failing raw 0).transport.answer 0 = .reply (.err terr) ∧
    (failing gfx 6).transport.grants 6 ∧ (failing gfx 6).transport.answer 6 = .reply (.err terr) :=
  ⟨rfl, rfl, start_grants 7, start_grants 7, fun k hk => absurd hk (Nat.not_lt_zero k), rfl,
    fun k hk => by interval_cases k <;> rfl, rfl⟩

theorem test_witness_PassThroughsLeaveTheRest :
    (nextOf (exec (.setRotation .deg90) raw)).isSome = true ∧ (nextOf (exec .initRaw (failing raw 3))).isSome = true := by decide

theorem test_witness_ClearZeroesEveryByte : gfx.mode = .graphics := rfl

theorem test_witness_ClearIsTheLoopOfWrites : (freshFramebuffer .size128x64 6).covers 1024 :=
  freshFramebuffer_covers .size128x64 6

theorem test_witness_PixelMapIsTheSpecs :
    (Rotation.deg180 = .deg0 ∨ Rotation.deg180 = .deg180) ∧ (Rotation.deg270 = .deg90 ∨ Rotation.deg270 = .deg270) := by decide

/-- V-PIX-2, V-PIX-6, V-PIX-12, V-PIX-15: the ends of Map's domain. -/
theorem test_witness_PixelMapIsABijection :
    pixelMap .size128x64 .deg0 127 63 = some (1023, 7) ∧ pixelMap .size128x64 .deg0 0 64 = none ∧
    pixelMap .size128x64 .deg90 9 100 = some (228, 1) ∧ pixelMap .size128x64 .deg270 64 0 = none := by decide

theorem test_witness_SetPixelWritesOneBit :
    gfx.mode = .graphics ∧ gfx.Inv ∧
    pixelMap gfx.size gfx.rot (127 : BitVec 32).toNat (63 : BitVec 32).toNat = some (1023, 7) ∧
    pixelMap gfx.size gfx.rot (128 : BitVec 32).toNat (0 : BitVec 32).toNat = none := ⟨rfl, gfx_inv, rfl, rfl⟩

theorem test_witness_PixelEventClipsOrSetsThePixel :
    gfx.mode = .graphics ∧ gfx.Inv ∧ (BitVec.ofInt 32 (-1)).toInt < 0 ∧ 0 ≤ (0 : BitVec 32).toInt :=
  ⟨rfl, gfx_inv, by decide, by decide⟩

theorem test_witness_FramebufferWritersLeaveTheRest :
    (nextOf (exec (.setPixel 5 10 1) gfx)).isSome = true ∧
    pixelMap gfx.size gfx.rot (5 : BitVec 32).toNat (10 : BitVec 32).toNat = some (133, 2) ∧ 134 ≠ 133 := by decide +kernel

theorem test_witness_FlushSendsTheWholeFramebuffer :
    (gfxAt .deg180).mode = .graphics ∧ (gfxAt .deg180).Inv ∧ (gfxAt .deg180).rot = .deg180 ∧ gfx.rot = .deg0 ∧
    (gfxAt .deg180).transport.grants 35 := ⟨rfl, gfxAt_inv _, rfl, rfl, start_grants 35⟩

theorem test_witness_FlushRotatedFaultsAtPageEight :
    (gfxAt .deg90).mode = .graphics ∧ (gfxAt .deg90).Inv ∧ (gfxAt .deg90).rot = .deg90 ∧ (gfxAt .deg270).rot = .deg270 ∧
    (gfxAt .deg90).transport.grants 32 := ⟨rfl, gfxAt_inv _, rfl, rfl, start_grants 32⟩

/-- The error clauses of both rotation classes, at the last write of each. -/
theorem test_witness_Flush_errors :
    (failing gfx 34).transport.grants 34 ∧ (failing gfx 34).transport.answer 34 = .reply (.err terr) ∧
    (failing (gfxAt .deg90) 31).transport.grants 31 ∧ (failing (gfxAt .deg90) 31).transport.answer 31 = .reply (.err terr) :=
  ⟨fun k hk => by interval_cases k <;> rfl, rfl, fun k hk => by interval_cases k <;> rfl, rfl⟩

theorem test_witness_FlushUnrotatedIsTheZeroDegreeCase :
    gfx.mode = .graphics ∧ gfx.Inv ∧ gfx.transport.grants 35 := ⟨rfl, gfx_inv, start_grants 35⟩

theorem test_witness_LastPixelEventWins :
    gfx.mode = .graphics ∧ gfx.Inv ∧ 0 ≤ (3 : BitVec 32).toInt ∧
    pixelMap gfx.size gfx.rot (3 : BitVec 32).toNat (5 : BitVec 32).toNat = some (3, 5) ∧
    (∀ e ∈ [((4 : BitVec 32), (5 : BitVec 32), true)], ¬(e.1 = 3 ∧ e.2.1 = 5)) :=
  ⟨rfl, gfx_inv, by decide, rfl, by simp⟩

theorem test_witness_FlushOnlyReadsTheFramebuffer : (nextOf (exec .flush (failing gfx 4))).isSome = true := by decide +kernel

theorem test_witness_ResetPulsesThePin :
    gfx.mode = .graphics ∧ gfx.pin.grants 3 ∧
    ({ gfx with pin := failsAt 2 perr } : State).pin.grants 2 ∧
    ({ gfx with pin := failsAt 2 perr } : State).pin.answer 2 = .reply (.err perr) :=
  ⟨rfl, start_pin_grants 3, fun k hk => by interval_cases k <;> rfl, rfl⟩

theorem test_witness_ModeConversionsComplete :
    gfx.mode = .graphics ∧ raw.mode = .raw ∧ raw.mode ≠ .none ∧
    (runningEntry gfx .dropSurface).fault = none ∧ (runningEntry gfx .dropSurface).refused = none ∧
    (runningEntry gfx .dropSurface).program[(runningEntry gfx .dropSurface).pos]? = some .dropSurface :=
  ⟨rfl, rfl, by decide, rfl, rfl, rfl⟩

/-- A producer that has ended, one with an event left, and one that begins its cycle again. -/
theorem test_witness_PixelSequencesRunLazily :
    ∀ src ∈ [(⟨[], []⟩ : PixelSource), ⟨[(3, 5, true)], []⟩, ⟨[], [(3, 5, true)]⟩],
      (runningEntry gfx (.pixelSource src)).fault = none ∧ (runningEntry gfx (.pixelSource src)).refused = none ∧
      (runningEntry gfx (.pixelSource src)).program[(runningEntry gfx (.pixelSource src)).pos]? = some (.pixelSource src) ∧
      (runningEntry gfx (.pixelSource src)).mode = .graphics ∧ (runningEntry gfx (.pixelSource src)).Inv :=
  fun _ _ => ⟨rfl, rfl, rfl, rfl, gfx_inv.fbPresent, gfx_inv.fbAbsent, fun h => by simp [runningEntry, gfx, State.start] at h,
    gfx_inv.events⟩

theorem test_witness_PixelSequencesRunLazily_sources :
    (⟨[(3, 5, true)], []⟩ : PixelSource).queue = (3, 5, true) :: [] ∧
    (⟨[], [(3, 5, true)]⟩ : PixelSource).cycle = (3, 5, true) :: [] ∧ (⟨[], [(3, 5, true)]⟩ : PixelSource).cycle ≠ [] := by
  decide

theorem test_witness_LogOnlyGrowsByLegalEvents :
    logOf (step (running raw (.displayOn false))) = some (sentOk [0xAE]) := by decide

theorem test_witness_PhaseInfluencesNothing :
    (nextOf (step (running raw .getDimensions))).isSome = true ∧
    step raw = .refused .runEnded ∧
    step { running raw .getDimensions with fault := some .windowUnset } = .fault (.halted .windowUnset) :=
  ⟨by decide, rfl, rfl⟩

theorem test_witness_OnlyTheNamedInstructionsWriteARegister :
    (nextOf (exec (.setRotation .deg90) raw)).map (·.rot) = some .deg90 ∧
    (nextOf (exec (.setDrawArea 0 0 2 8) raw)).map (·.winEndCol) = some 2 ∧
    (nextOf (exec .unwrap raw)).map (·.mode) = some .none := by decide

theorem test_witness_StepKeepsTheInvariant :
    (running gfx (.displayOn true)).Inv ∧
    logOf (step (running gfx (.displayOn true))) = some (sentOk [0xAF]) :=
  ⟨⟨gfx_inv.fbPresent, gfx_inv.fbAbsent, fun h => by simp [running, runningEntry, gfx, State.start] at h, gfx_inv.events⟩, by decide +kernel⟩

theorem test_witness_FirstErrorEndsTheOperation :
    gfx.fault = none ∧ gfx.refused = none ∧ (nextOf (exec .flush (failing gfx 3))).isSome = true ∧
    (nextOf (exec .flush gfx)).isSome = true := by decide +kernel

theorem test_witness_FirstBadAnswerCutsTheRun :
    (∀ pin, Instr.setRotation .deg90 ≠ .reset pin) ∧ raw.fault = none ∧ raw.refused = none ∧
    (∃ t es, exec (.setRotation .deg90) (failing raw 1).granted = .next t ∧ t.log = (failing raw 1).log ++ es ∧
      1 < es.length) ∧
    (failing raw 1).transport.grants 1 ∧ (failing raw 1).transport.answer 1 = .reply (.err terr) ∧
    ({ raw with transport := silentAt _ 1 } : State).transport.grants 1 ∧
    ({ raw with transport := silentAt _ 1 } : State).transport.answer 1 = .never :=
  ⟨by intro pin; simp, rfl, rfl, ⟨_, _, rfl, rfl, by decide⟩, fun k hk => by interval_cases k; rfl, rfl,
    fun k hk => by interval_cases k; rfl, rfl⟩

theorem test_witness_FramebufferIsSeenOnlyThroughFlush :
    (Instr.release) ≠ .flush ∧ gfx.Inv ∧ gfx.mode = .graphics ∧ (freshFramebuffer .size128x64 0).covers 1024 ∧
    (nextOf (exec .release gfx)).isSome = true :=
  ⟨by decide, gfx_inv, rfl, freshFramebuffer_covers .size128x64 0, by decide +kernel⟩

/-- An initialization, a reset and a connect that answer next states with no refusal. -/
theorem test_witness_PhaseMovesByTheTable :
    (nextOf (exec .init gfx)).map (·.refused) = some none ∧
    (nextOf (exec (.reset .noOp) gfx)).map (·.refused) = some none ∧
    (nextOf (exec (.connect PanelConfig.default) State.start)).map (·.refused) = some none := by decide +kernel

end Sys2Proof.Machine
end

section
/-! PROOF. FAULT and REFUSED stop every step, and no instruction clears either (spec/10_state.md R30). -/

namespace Sys2Proof.Machine

/-! ## A halted state -/

/-- A recorded fault stops every step. -/
theorem step_of_fault {s : State} {r : FaultReason} (h : s.fault = some r) : step s = .fault (.halted r) := by
  simp only [step, haltOf, h]

/-- A recorded refusal stops every step; a fault recorded besides would be the stop that is answered. -/
theorem step_of_refused {s : State} {r : RefusalReason} (hf : s.fault = none) (h : s.refused = some r) :
    step s = .refused (.halted r) := by
  simp only [step, haltOf, hf, h]

theorem final_of_fault {s : State} {r : FaultReason} (h : s.fault = some r) : s.final = false := by
  simp [State.final, h]

theorem final_of_refused {s : State} {r : RefusalReason} (h : s.refused = some r) : s.final = false := by
  simp [State.final, h]

/-! ## No body writes FAULT or REFUSED -/

theorem Sends.keeps_fault_refused {s u : State} (h : Sends s u) : u.fault = s.fault ∧ u.refused = s.refused := by
  obtain ⟨es, rfl, -⟩ := h
  exact ⟨rfl, rfl⟩

theorem Draws.keeps_fault_refused {s u : State} (h : Draws s u) : u.fault = s.fault ∧ u.refused = s.refused := by
  obtain ⟨c, r, es, rfl, -⟩ := h
  exact ⟨rfl, rfl⟩

theorem Flushes.keeps_fault_refused {s u : State} (h : Flushes s u) : u.fault = s.fault ∧ u.refused = s.refused := by
  obtain rfl | ⟨sc, sr, ec, er, c, r, es, rfl, -⟩ := h <;> exact ⟨rfl, rfl⟩

theorem Pulses.keeps_fault_refused {s u : State} (h : Pulses s u) : u.fault = s.fault ∧ u.refused = s.refused := by
  obtain ⟨a, es, rfl, -⟩ := h
  exact ⟨rfl, rfl⟩

/-- No instruction's body writes FAULT or REFUSED, CONNECT's among them: only the recorded outcome does. -/
theorem BodyLeaves.keeps_fault_refused {i : Instr} {s u : State} (h : BodyLeaves i s u) :
    u.fault = s.fault ∧ u.refused = s.refused := by
  cases i with
  | clockDiv | contrast | precharge | scrollOn | scrollOff | cmdDisplayOn | cmdDisplayOff | segRemap1 | segRemap0
  | comReverse | comNormal | pageStart | colLow | colHigh | displayOn | setContrast =>
    exact Sends.keeps_fault_refused h
  | setRotation rot => exact Sends.keeps_fault_refused (s := s.setRot rot) h
  | draw => exact Draws.keeps_fault_refused h
  | flush => exact Flushes.keeps_fault_refused h
  | init | initRaw =>
    obtain ⟨v, p, hv, rfl⟩ := h
    exact hv.keeps_fault_refused
  | reset =>
    obtain ⟨-, v, p, hv, rfl⟩ := h
    exact hv.keeps_fault_refused
  | setDrawArea sc sr ec er =>
    obtain rfl | ⟨-, hu⟩ := h
    · exact ⟨rfl, rfl⟩
    · exact hu.keeps_fault_refused
  | setPixel | pixelEvent =>
    obtain ⟨-, m, rfl, -⟩ := h
    exact ⟨rfl, rfl⟩
  | connect | clear =>
    obtain ⟨-, rfl⟩ := h
    exact ⟨rfl, rfl⟩
  | withSize | withRotation | getDimensions | release | enterGraphics | unwrap =>
    obtain rfl := h
    exact ⟨rfl, rfl⟩

/-! ## No instruction clears FAULT or REFUSED -/

/-- Each of FAULT and REFUSED is unchanged by an instruction that answers a next state, or set by it. -/
theorem exec_fault_refused {i : Instr} {s t : State} (h : exec i s = .next t) :
    (t.fault = s.fault ∨ ∃ r, t.fault = some r) ∧ (t.refused = s.refused ∨ ∃ r, t.refused = some r) := by
  obtain ⟨r, rfl⟩ | ⟨u, hu, hout⟩ := exec_cases h
  · exact ⟨.inl rfl, .inr ⟨r, rfl⟩⟩
  · obtain ⟨hf, hr⟩ := hu.keeps_fault_refused
    obtain ⟨r, rfl⟩ | ⟨r, rfl⟩ := hout
    · exact ⟨.inl hf, .inl hr⟩
    · exact ⟨.inr ⟨r, rfl⟩, .inl hr⟩

theorem exec_keeps_fault {i : Instr} {s t : State} (h : exec i s = .next t) (hs : s.fault ≠ none) : t.fault ≠ none := by
  obtain ht | ⟨r, ht⟩ := (exec_fault_refused h).1 <;> simp [ht, hs]

theorem exec_keeps_refused {i : Instr} {s t : State} (h : exec i s = .next t) (hs : s.refused ≠ none) :
    t.refused ≠ none := by
  obtain ht | ⟨r, ht⟩ := (exec_fault_refused h).2 <;> simp [ht, hs]

/-- Settles O6: a halted state answers its stop, and every outcome `exec_cases` lists keeps or sets each of FAULT and
REFUSED. -/
theorem faultAndRefusedAreSticky : Obligations.FaultAndRefusedAreSticky := by
  unfold Obligations.FaultAndRefusedAreSticky
  exact ⟨fun s r h => ⟨step_of_fault h, final_of_fault h⟩,
    fun s r h => ⟨final_of_refused h, fun hf => step_of_refused hf h⟩,
    fun i s t h => ⟨exec_keeps_fault h, exec_keeps_refused h⟩, rfl, rfl⟩

end Sys2Proof.Machine
end

section
/-! PROOF. Map (20_memory.md R53): its value for each rotation class, its inverse, and the bijection onto the framebuffer's bits
(R54). -/

namespace Sys2Proof.Machine

/-! ## Map of the two rotation classes -/

@[simp] theorem swapsAxes_deg0 : swapsAxes .deg0 = false := rfl

theorem pixelMap_of_not_swapsAxes {rot : Rotation} (h : swapsAxes rot = false) (size : SizeCode) (x y : Nat) :
    pixelMap size rot x y = pixelMap size .deg0 x y := by
  simp [pixelMap, h]

/-- A rotation that swaps the axes gives what 0 degrees gives with x and y exchanged. -/
theorem pixelMap_of_swapsAxes {rot : Rotation} (h : swapsAxes rot = true) (size : SizeCode) (x y : Nat) :
    pixelMap size rot x y = pixelMap size .deg0 y x := by
  simp [pixelMap, h]

/-! ## Map at 0 degrees on the 128 by 64 panel -/

/-- Within the width, the length guard is the bound on y (R54). -/
theorem lengthGuard_iff {x y : Nat} (hx : x < 128) : y / 8 * 128 + x < 1024 ↔ y < 64 := by
  omega

theorem pixelMap_deg0 (x y : Nat) :
    pixelMap .size128x64 .deg0 x y = if x < 128 ∧ y < 64 then some (y / 8 * 128 + x, y % 8) else none := by
  simp only [pixelMap, swapsAxes_deg0, SizeCode.fbBytes, SizeCode.width, SizeCode.height, pageHeight, Nat.reduceMul,
    Nat.reduceDiv, Bool.false_eq_true, if_false]
  by_cases hx : x < 128
  · simp only [lengthGuard_iff hx, hx, if_true, true_and]
  · simp only [hx, if_false, false_and]

theorem pixelMap_deg0_isSome (x y : Nat) :
    (pixelMap .size128x64 .deg0 x y).isSome = true ↔ x < 128 ∧ y < 64 := by
  simp only [pixelMap_deg0, Option.isSome_ite]

/-- The inverse of Map: each bit of the framebuffer shows exactly one pixel. -/
theorem pixelMap_deg0_eq_some_iff {x y idx bit : Nat} :
    pixelMap .size128x64 .deg0 x y = some (idx, bit) ↔
      (idx < 1024 ∧ bit < 8) ∧ x = idx % 128 ∧ y = idx / 128 * 8 + bit := by
  simp only [pixelMap_deg0, Option.ite_none_right_eq_some, Option.some.injEq, Prod.mk.injEq]
  omega

theorem pixelMap_deg0_injective {x y x' y' : Nat} {p : Nat × Nat} (h : pixelMap .size128x64 .deg0 x y = some p)
    (h' : pixelMap .size128x64 .deg0 x' y' = some p) : x = x' ∧ y = y' := by
  obtain ⟨-, rfl, rfl⟩ := pixelMap_deg0_eq_some_iff.1 h
  obtain ⟨-, rfl, rfl⟩ := pixelMap_deg0_eq_some_iff.1 h'
  exact ⟨rfl, rfl⟩

/-! ## The bijection at every rotation -/

theorem pixelMap_injective (rot : Rotation) {x y x' y' : Nat} {p : Nat × Nat}
    (h : pixelMap .size128x64 rot x y = some p) (h' : pixelMap .size128x64 rot x' y' = some p) : x = x' ∧ y = y' := by
  cases hr : swapsAxes rot with
  | false =>
    rw [pixelMap_of_not_swapsAxes hr] at h h'
    exact pixelMap_deg0_injective h h'
  | true =>
    rw [pixelMap_of_swapsAxes hr] at h h'
    exact (pixelMap_deg0_injective h h').symm

theorem exists_pixelMap_eq (rot : Rotation) {idx bit : Nat} (hidx : idx < 1024) (hbit : bit < 8) :
    ∃ x y, pixelMap .size128x64 rot x y = some (idx, bit) := by
  have h0 : pixelMap .size128x64 .deg0 (idx % 128) (idx / 128 * 8 + bit) = some (idx, bit) :=
    pixelMap_deg0_eq_some_iff.2 ⟨⟨hidx, hbit⟩, rfl, rfl⟩
  cases hr : swapsAxes rot with
  | false => exact ⟨_, _, (pixelMap_of_not_swapsAxes hr ..).trans h0⟩
  | true => exact ⟨_, _, (pixelMap_of_swapsAxes hr ..).trans h0⟩

/-- Settles O39: each rotation is of one class, and both classes reduce to Map at 0 degrees. -/
theorem pixelMapIsTheSpecs : Obligations.PixelMapIsTheSpecs := by
  unfold Obligations.PixelMapIsTheSpecs
  intro x y rot
  constructor
  · rintro (rfl | rfl)
    · exact pixelMap_deg0 x y
    · exact (pixelMap_of_not_swapsAxes rfl ..).trans (pixelMap_deg0 x y)
  · rintro (rfl | rfl)
    all_goals exact (pixelMap_of_swapsAxes rfl ..).trans (pixelMap_deg0 y x)

/-- Settles O40: the classes reduce to Map at 0 degrees, whose inverse `pixelMap_deg0_eq_some_iff` writes out. -/
theorem pixelMapIsABijection : Obligations.PixelMapIsABijection := by
  unfold Obligations.PixelMapIsABijection
  refine ⟨fun x y => ⟨pixelMap_deg0_isSome x y, ?_, pixelMap_of_not_swapsAxes rfl .., ?_⟩, fun rot => ⟨?_, ?_, ?_⟩⟩
  · rw [pixelMap_of_swapsAxes (rot := .deg90) rfl]
    exact pixelMap_deg0_isSome y x
  · exact (pixelMap_of_swapsAxes rfl ..).trans (pixelMap_of_swapsAxes rfl ..).symm
  · exact fun _ _ _ _ _ => pixelMap_injective rot
  · exact fun _ _ _ _ => pixelMap_bounds
  · exact fun _ _ => exists_pixelMap_eq rot

end Sys2Proof.Machine
end

section
/-! PROOF. A command stream is split into its commands by first bytes (spec/30_encoding.md R73), and a code that R77 does not list
is refused with UnknownOp (R78). -/

namespace Sys2Proof.Machine

/-! ## The length a first byte gives -/

theorem eq_pattern_of_covers {c : Command} {b : Byte} (hm : c.mask = BitVec.allOnes 8) (h : c.covers b = true) :
    b = c.pattern := by
  rw [Command.covers, hm, BitVec.and_allOnes] at h
  exact eq_of_beq h

/-- R73 by the rows of R71: a row without a field fixes the whole first byte, and a row with a field covers none of the three
bytes that begin a two-byte command. -/
theorem length_of_covers {c : Command} {b : Byte} (h : c.covers b = true) :
    c.length = if b = 0x81 ∨ b = 0xD5 ∨ b = 0xD9 then 2 else 1 := by
  cases c with
  | pageStart | colLow | colHigh =>
    have hb : ¬(b = 0x81 ∨ b = 0xD5 ∨ b = 0xD9) := by
      rintro (rfl | rfl | rfl) <;> exact absurd h (by decide)
    exact (if_neg hb).symm
  | clockDiv | contrast | precharge | scrollOn | scrollOff | displayOn | displayOff | segRemap1 | segRemap0
  | comReverse | comNormal =>
    obtain rfl := eq_pattern_of_covers rfl h
    rfl

theorem length_of_commandOf {c : Command} {b : Byte} (h : commandOf b = some c) :
    c.length = if b = 0x81 ∨ b = 0xD5 ∨ b = 0xD9 then 2 else 1 :=
  length_of_covers (List.find?_some (p := fun d : Command => d.covers b) h)

/-! ## One command at the front of a stream -/

theorem decodeFirst_oneByte {c : Command} {b : Byte} (hc : commandOf b = some c) (hl : c.length ≠ 2) (rest : List Byte) :
    decodeFirst (b :: rest) = .ok (c.instr b 0, rest) := by
  simp only [decodeFirst, hc, if_neg hl]

theorem commandOf_colLow (n : BitVec 4) : commandOf (0x00 + n.setWidth 8) = some .colLow := by
  revert n; decide

theorem commandOf_colHigh (n : BitVec 4) : commandOf (0x10 + n.setWidth 8) = some .colHigh := by
  revert n; decide

/-- A column command's operand is read back from the low nibble of its byte (R109, R110). -/
theorem lowNibble_colLow (n : BitVec 4) : (0x00 + n.setWidth 8 : Byte).extractLsb' 0 4 = n := by
  revert n; decide

theorem lowNibble_colHigh (n : BitVec 4) : (0x10 + n.setWidth 8 : Byte).extractLsb' 0 4 = n := by
  revert n; decide

/-- Whatever bytes follow, a well-formed command is read off the front of a stream, with all its own bytes. -/
theorem decodeFirst_encode_append {i : Instr} (hw : i.wf = true) (hc : i.isCommand = true) (rest : List Byte) :
    decodeFirst ((encode i).bytes ++ rest) = .ok (i, rest) := by
  cases i with
  | clockDiv | contrast | precharge | scrollOn | scrollOff | cmdDisplayOn | cmdDisplayOff | segRemap1 | segRemap0
  | comReverse | comNormal => rfl
  | pageStart p =>
    have hp : p ≤ 7 := of_decide_eq_true hw
    interval_cases p <;> rfl
  | colLow n =>
    have h := decodeFirst_oneByte (commandOf_colLow n) (by decide) rest
    rwa [Command.instr, lowNibble_colLow] at h
  | colHigh n =>
    have h := decodeFirst_oneByte (commandOf_colHigh n) (by decide) rest
    rwa [Command.instr, lowNibble_colHigh] at h
  | connect | withSize | withRotation | reset | init | initRaw | clear | setPixel | pixelEvent | flush | setDrawArea | draw
  | setRotation | getDimensions | displayOn | setContrast | release | enterGraphics | unwrap =>
    exact absurd hc Bool.false_ne_true

/-! ## The whole stream -/

/-- Splitting a stream is reading one command off its front and splitting the bytes after it. -/
theorem decodeStream_of_decodeFirst {bytes rest : List Byte} {i : Instr} (h : decodeFirst bytes = .ok (i, rest)) :
    decodeStream bytes = consInstr i (decodeStream rest) := by
  fun_cases decodeFirst bytes with
  | case1 => cases h
  | case2 b _ hb => simp [decodeFirst, hb] at h
  | case3 b c hb hl => simp [decodeFirst, hb, hl] at h
  | case4 b c hb hl v after =>
    obtain ⟨rfl, rfl⟩ : c.instr b v = i ∧ after = rest := by simpa [decodeFirst, hb, hl] using h
    simp only [decodeStream, hb, if_pos hl]
  | case5 b after c hb hl =>
    obtain ⟨rfl, rfl⟩ : c.instr b 0 = i ∧ after = rest := by simpa [decodeFirst_oneByte hb hl] using h
    cases after <;> simp only [decodeStream, hb, if_neg hl, consInstr]

/-- By induction on the commands: each is read off the front of the bytes of those that follow. -/
theorem decodeStream_encodeStream (is : List Instr) (h : ∀ i ∈ is, i.wf = true ∧ i.isCommand = true) :
    decodeStream (encodeStream is) = .ok is := by
  induction is with
  | nil => rfl
  | cons i is ih =>
    obtain ⟨⟨hw, hc⟩, his⟩ := List.forall_mem_cons.1 h
    calc decodeStream (encodeStream (i :: is))
        = decodeStream ((encode i).bytes ++ encodeStream is) := rfl
      _ = consInstr i (decodeStream (encodeStream is)) := decodeStream_of_decodeFirst (decodeFirst_encode_append hw hc _)
      _ = .ok (i :: is) := by rw [ih his]; rfl

/-- Settles O2: the table's rows give the length rule, and the stream is split by induction on its commands. -/
theorem commandStreamSplitsByFirstBytes : Obligations.CommandStreamSplitsByFirstBytes := by
  unfold Obligations.CommandStreamSplitsByFirstBytes
  exact ⟨fun _ _ => length_of_commandOf, decodeStream_encodeStream⟩

/-! ## A code that no operation has -/

/-- The codes an unassigned entry can hold are those that no listed operation has (R78). -/
theorem exists_unassignedCode_iff (code : Byte) :
    (∃ c : UnassignedCode, c.code = code) ↔ ∀ op : HostOp, op.code ≠ code := by
  rw [← unassigned_iff]
  constructor
  · rintro ⟨c, rfl⟩
    exact c.unassigned
  · exact fun h => ⟨⟨code, h⟩, rfl⟩

/-- Settles O7: the step runs the unassigned entry, which only records the refusal. -/
theorem unlistedCodeIsRefusedAsUnknownOp : Obligations.UnlistedCodeIsRefusedAsUnknownOp := by
  unfold Obligations.UnlistedCodeIsRefusedAsUnknownOp
  exact ⟨fun _ _ hf hr he => step_entry hf hr he, exists_unassignedCode_iff⟩

end Sys2Proof.Machine
end

section
/-! PROOF. Runs of command writes: a body that is one list of commands sends them in order, and the first that fails ends it
(spec/00_scope.md R8, spec/60_exceptions.md R208); and which bodies are such a list. -/

namespace Sys2Proof.Machine

/-! ## A list of commands sent in order -/

/-- The command writes of a list, each tried after the one before it ended. -/
def sendCommands : List (List Byte) → State → Flow
  | [], s => .done s
  | c :: cs, s => (cmdWrite c s).andThen (sendCommands cs)

/-- The events of such a list when every write is answered `Ok`. -/
def commandEvents (cs : List (List Byte)) : List Event := cs.map fun c => .cmd c .ok

@[simp] theorem commandEvents_nil : commandEvents [] = [] := rfl

@[simp] theorem commandEvents_cons (c : List Byte) (cs : List (List Byte)) :
    commandEvents (c :: cs) = .cmd c .ok :: commandEvents cs := rfl

theorem commandEvents_getElem? {cs : List (List Byte)} {k : Nat} {c : List Byte} (h : cs[k]? = some c) :
    (commandEvents cs)[k]? = some (.cmd c .ok) := by
  simp [commandEvents, h]

theorem cmdWrite_ok (c : List Byte) {s : State} (h : s.transport.answer 0 = .reply .ok) :
    cmdWrite c s = .done (s.sent [.cmd c .ok]) := transportWrite_ok _ s h

theorem cmdWrite_err (c : List Byte) {s : State} {e : TransportErr} (h : s.transport.answer 0 = .reply (.err e)) :
    cmdWrite c s = .failed (.transport e) (s.sent [.cmd c (.err e)]) := transportWrite_err _ s e h

/-- The transport after `Ok` was answered to one write still gives the answers to come. -/
theorem grants_sent_one {s : State} {n : Nat} (h : s.transport.grants (n + 1)) (ev : Event) :
    (s.sent [ev]).transport.grants n :=
  Agent.grants_skip (m := 1) (by rwa [Nat.add_comm])

/-- With an `Ok` to each, all the commands are sent. -/
theorem sendCommands_ok (cs : List (List Byte)) (s : State) (h : s.transport.grants cs.length) :
    sendCommands cs s = .done (s.sent (commandEvents cs)) := by
  induction cs generalizing s with
  | nil => simp [sendCommands]
  | cons c cs ih =>
    rw [sendCommands, cmdWrite_ok c (h 0 (Nat.succ_pos _)), Flow.andThen_done, ih _ (grants_sent_one h _)]
    simp

/-- The first error ends the list: the writes before it and the failing one are logged, and no later one is made. -/
theorem sendCommands_err {cs : List (List Byte)} {k : Nat} {c : List Byte} (hc : cs[k]? = some c) {s : State} {e : TransportErr}
    (h : s.transport.grants k) (he : s.transport.answer k = .reply (.err e)) :
    sendCommands cs s = .failed (.transport e) (s.sent ((commandEvents cs).take k ++ [.cmd c (.err e)])) := by
  induction cs generalizing k s with
  | nil => simp at hc
  | cons d cs ih =>
    cases k with
    | zero =>
      obtain rfl : d = c := by simpa using hc
      rw [sendCommands, cmdWrite_err d he, Flow.andThen_failed]
      simp
    | succ k =>
      have hk : (s.sent [.cmd d .ok]).transport.answer k = .reply (.err e) := by simpa [Nat.add_comm] using he
      rw [sendCommands, cmdWrite_ok d (h 0 (Nat.succ_pos _)), Flow.andThen_done,
        ih (by simpa using hc) (grants_sent_one h _) hk]
      simp

/-! ## The bodies that are a list of commands -/

theorem Flow.andThen_assoc (x : Flow) (f g : State → Flow) :
    (x.andThen f).andThen g = x.andThen fun s => (f s).andThen g := by
  cases x <;> rfl

/-- After a command write that ended, the rest of a body may be replaced by one that does the same on every state in which
only events were sent. -/
theorem cmdWrite_andThen_congr {c : List Byte} {s : State} {f g : State → Flow} (h : ∀ es, f (s.sent es) = g (s.sent es)) :
    (cmdWrite c s).andThen f = (cmdWrite c s).andThen g := by
  have hl := transportWrite_leaves (.cmd c) s
  unfold cmdWrite
  cases hx : transportWrite (.cmd c) s with
  | done u =>
    rw [hx] at hl
    obtain ⟨r, rfl⟩ := hl
    exact h _
  | failed _ _ => rfl
  | raised _ _ => rfl
  | stuck _ => rfl

theorem Flow.andThen_done_right (x : Flow) : x.andThen .done = x := by
  cases x <;> rfl

theorem sendCommands_singleton (c : List Byte) : sendCommands [c] = cmdWrite c :=
  funext fun s => Flow.andThen_done_right (cmdWrite c s)

/-- The remap table's flags, sent as commands, are the table's bytes (R106, R107, R128). -/
theorem sendRemap_eq (rot : Rotation) :
    sendRemap rot = sendCommands [[(remapBytes rot).1], [(remapBytes rot).2]] := by
  funext s
  rw [sendCommands, sendCommands_singleton]
  cases rot <;> rfl

/-- The commands of an address sequence (R121). -/
def addressCommands (page : Nat) (col : Byte) : List (List Byte) :=
  [[0xB0 + BitVec.ofNat 8 page], [0x00 + (lowNibble col).setWidth 8], [0x10 + (highNibble col).setWidth 8]]

theorem commandEvents_address (page : Nat) (col : Byte) :
    commandEvents (addressCommands page col) = addressEvents page col := by
  simp [addressCommands, addressEvents]

/-- For a page the encoder takes, the address sequence is its three commands: none of them moves the cursor (R121). -/
theorem sendDrawAddress_eq {s : State} (hp : pageOf s.curRow ≤ 7) :
    sendDrawAddress s = sendCommands (addressCommands (pageOf s.curRow) s.curCol) s := by
  rw [sendDrawAddress, sendPageStart_ok _ _ hp, addressCommands, sendCommands]
  refine cmdWrite_andThen_congr fun es => ?_
  rw [sendCommands, sendCommands_singleton]
  exact cmdWrite_andThen_congr fun es' => rfl

/-- The commands of an initialization with a remap pair (R122). -/
def initCommands (seg com : Byte) : List (List Byte) :=
  [[0xD5, Config.initClockDiv], [seg], [com], [0x81, Config.initContrast], [0xD9, Config.initPrecharge], [0x2E], [0xAF]]

theorem commandEvents_init (seg com : Byte) : commandEvents (initCommands seg com) = initEvents seg com := rfl

/-- The initialization sequence is its seven commands: the first does not change the rotation that gives the pair (R122). -/
theorem initSequence_eq (s : State) :
    initSequence s = sendCommands (initCommands (remapBytes s.rot).1 (remapBytes s.rot).2) s := by
  rw [initSequence, initCommands, sendCommands]
  refine cmdWrite_andThen_congr fun es => ?_
  simp only [State.sent_rot, sendRemap_eq, sendCommands, Flow.andThen_assoc, Flow.andThen_done_right]
  rfl

end Sys2Proof.Machine
end

section
/-! PROOF. Display Properties: the draw window, the rotation, the dimensions, the pass-throughs and the initialization
(spec/41_display_properties.md R122, R123, R128 to R132). -/

namespace Sys2Proof.Machine

/-! ## Operations of a session -/

theorem admits_session {op : HostOp} {m : Mode} (hg : admits op .graphics = true) (hr : admits op .raw = true)
    (h : m ≠ .none) : admits op m = true := by
  cases m with
  | none => exact absurd rfl h
  | graphics => exact hg
  | raw => exact hr

theorem exec_setRotation {s : State} (h : s.mode ≠ .none) (rot : Rotation) :
    exec (.setRotation rot) s =
      conclude .unit (sendCommands [[(remapBytes rot).1], [(remapBytes rot).2]] (s.setRot rot)) := by
  rw [← sendRemap_eq]
  exact gate_yes (admits_session rfl rfl h) _

theorem exec_displayOn {s : State} (h : s.mode ≠ .none) (on : Bool) :
    exec (.displayOn on) s = conclude .unit (cmdWrite [if on then 0xAF else 0xAE] s) :=
  gate_yes (admits_session rfl rfl h) _

theorem exec_setContrast {s : State} (h : s.mode ≠ .none) (v : Byte) :
    exec (.setContrast v) s = conclude .unit (cmdWrite [0x81, v] s) :=
  gate_yes (admits_session rfl rfl h) _

theorem exec_getDimensions {s : State} (h : s.mode ≠ .none) :
    exec .getDimensions s =
      .next (s.returned (.ok (.dimensions (dimensionsOf s.size s.rot).1 (dimensionsOf s.size s.rot).2))) :=
  gate_yes (admits_session rfl rfl h) _

/-! ## The draw window -/

/-- The registers of a recorded draw area: the window, and the cursor at its start (R123). -/
def State.setDrawArea (s : State) (sc sr ec er : Byte) : State := (s.setWindow sc sr ec er).setCursor sc sr

/-- SET_DRAW_AREA of a window that is neither empty nor inverted records it before the address sequence (R123). -/
theorem exec_setDrawArea_legal {s : State} {sc sr ec er : Byte} (hm : s.mode = .raw) (hc : sc.toNat < ec.toNat)
    (hr : sr.toNat < er.toNat) :
    exec (.setDrawArea sc sr ec er) s =
      conclude .unit (sendDrawAddress (s.setDrawArea sc sr ec er)) := by
  have hbody : drawAreaBody sc sr ec er s = sendDrawAddress (s.setDrawArea sc sr ec er) := if_pos ⟨hc, hr⟩
  rw [← hbody]
  exact gate_yes (by simp [admits, hm]) _

theorem exec_setDrawArea_illegal {s : State} {sc sr ec er : Byte} (hm : s.mode = .raw)
    (h : ¬(sc.toNat < ec.toNat ∧ sr.toNat < er.toNat)) :
    exec (.setDrawArea sc sr ec er) s = .next (s.setFault (.illegalWindow sc sr ec er)) := by
  have hbody : drawAreaBody sc sr ec er s = .raised (.illegalWindow sc sr ec er) s := if_neg h
  rw [← conclude_raised .unit, ← hbody]
  exact gate_yes (by simp [admits, hm]) _

/-- The bytes of an address sequence by arithmetic on page and column (R72, R121). -/
theorem addressEvents_eq_ofNat (page : Nat) (col : Byte) :
    addressEvents page col =
      [.cmd [BitVec.ofNat 8 (0xB0 + page)] .ok, .cmd [BitVec.ofNat 8 (col.toNat % 16)] .ok,
       .cmd [BitVec.ofNat 8 (0x10 + col.toNat / 16)] .ok] := by
  have hlow : (lowNibble col).setWidth 8 = BitVec.ofNat 8 (col.toNat % 16) := by
    apply BitVec.eq_of_toNat_eq
    simp [lowNibble]
  have hhigh : (highNibble col).setWidth 8 = BitVec.ofNat 8 (col.toNat / 16) := by
    have hcol := col.isLt
    apply BitVec.eq_of_toNat_eq
    simp [highNibble, Nat.shiftRight_eq_div_pow]
    omega
  rw [addressEvents, hlow, hhigh, BitVec.ofNat_add, BitVec.ofNat_add]
  rfl

/-- Settles O22: a legal window is recorded, then the address sequence is a list of three commands. -/
theorem setDrawAreaRecordsTheWindow : Obligations.SetDrawAreaRecordsTheWindow := by
  rintro s u sc sr ec er hm rfl
  refine ⟨exec_setDrawArea_illegal hm, fun hc hr hp => ?_, fun hc hr hp => ⟨fun h => ?_, fun k e hk h he => ?_⟩⟩
  · rw [exec_setDrawArea_legal hm hc hr]
    exact congrArg (conclude .unit) (sendDrawAddress_raised (s.setDrawArea sc sr ec er) hp)
  · rw [exec_setDrawArea_legal hm hc hr, ← addressEvents_eq_ofNat]
    exact congrArg (conclude .unit) (sendDrawAddress_ok (s.setDrawArea sc sr ec er) hp h)
  · have hget : (addressCommands (sr.toNat / 8) sc)[k]? = some (addressCommands (sr.toNat / 8) sc)[k] :=
      List.getElem?_eq_getElem hk
    rw [exec_setDrawArea_legal hm hc hr, sendDrawAddress_eq (s := s.setDrawArea sc sr ec er) hp, ← commandEvents_address]
    exact ⟨_, commandEvents_getElem? hget,
      congrArg (conclude .unit) (sendCommands_err (s := s.setDrawArea sc sr ec er) hget h he)⟩

/-! ## The rotation -/

/-- Settles O32: `ROT` is written before the pair, which is a list of two commands. -/
theorem setRotationSendsTheRemapPair : Obligations.SetRotationSendsTheRemapPair := by
  intro s rot hm
  rw [exec_setRotation hm]
  refine ⟨fun h => ?_, fun e he => ?_, fun e h0 he => ?_⟩
  · exact congrArg (conclude .unit) (sendCommands_ok [[(remapBytes rot).1], [(remapBytes rot).2]] (s.setRot rot) h)
  · exact congrArg (conclude .unit)
      (sendCommands_err (k := 0) (s := s.setRot rot) rfl (fun _ hk => absurd hk (Nat.not_lt_zero _)) he)
  · have hgrants : s.transport.grants 1 := fun k hk => by rwa [Nat.lt_one_iff.1 hk]
    exact congrArg (conclude .unit) (sendCommands_err (k := 1) (s := s.setRot rot) rfl hgrants he)

theorem dimensionsOf_eq (size : SizeCode) (rot : Rotation) :
    dimensionsOf size rot = if swapsAxes rot then (64, 128) else (128, 64) := by
  cases size; rfl

/-- Settles O33: width and height are exchanged exactly by the rotations that exchange the axes. -/
theorem getDimensionsFollowsTheRotation : Obligations.GetDimensionsFollowsTheRotation := by
  intro s hm
  rw [exec_getDimensions hm, dimensionsOf_eq]
  refine ⟨fun h => ?_, fun h => ?_⟩
  · have hswap : swapsAxes s.rot = false := by rcases h with h | h <;> rw [h] <;> rfl
    rw [hswap]; rfl
  · have hswap : swapsAxes s.rot = true := by rcases h with h | h <;> rw [h] <;> rfl
    rw [hswap]; rfl

/-! ## The pass-throughs -/

/-- Settles O34: each of the two operations is one command write. -/
theorem passThroughsSendOneCommand : Obligations.PassThroughsSendOneCommand := by
  intro s v hm
  simp only [exec_displayOn hm, exec_setContrast hm]
  refine ⟨fun h => ?_, fun e h => ?_⟩
  · simp only [cmdWrite_ok _ h]
    exact ⟨rfl, rfl, rfl⟩
  · simp only [cmdWrite_err _ h]
    exact ⟨rfl, rfl, rfl⟩

/-! ## The initialization -/

/-- INITIALIZE in RAW and INIT in GRAPHICS share one body (R157). -/
theorem exec_initialization {s : State} {i : Instr} (h : (i = .initRaw ∧ s.mode = .raw) ∨ (i = .init ∧ s.mode = .graphics)) :
    exec i s = conclude .unit
      ((sendCommands (initCommands (remapBytes s.rot).1 (remapBytes s.rot).2) s).movePhase phaseAfterInit fun _ => .unreset) := by
  rw [← initSequence_eq]
  rcases h with ⟨rfl, hm⟩ | ⟨rfl, hm⟩ <;> exact gate_yes (by simp [admits, hm]) _

theorem phaseAfterInit_eq (p : Phase) : phaseAfterInit p = if p = .unreset then .unreset else .ready := by
  cases p <;> rfl

@[simp] theorem Flow.movePhase_done (s : State) (onOk onErr : Phase → Phase) :
    (Flow.done s).movePhase onOk onErr = .done (s.setPhase (onOk s.phase)) := rfl

@[simp] theorem Flow.movePhase_failed (e : OpError) (s : State) (onOk onErr : Phase → Phase) :
    (Flow.failed e s).movePhase onOk onErr = .failed e (s.setPhase (onErr s.phase)) := rfl

/-- Settles O35: the body is a list of seven commands, and its outcome moves `PHASE`. -/
theorem initializationSendsTheSequence : Obligations.InitializationSendsTheSequence := by
  intro s i hi
  rw [exec_initialization hi, ← commandEvents_init]
  refine ⟨fun h => ?_, fun k e hk h he => ?_⟩
  · rw [sendCommands_ok (initCommands (remapBytes s.rot).1 (remapBytes s.rot).2) s h, Flow.movePhase_done, phaseAfterInit_eq]
    rfl
  · have hget := List.getElem?_eq_getElem (l := initCommands (remapBytes s.rot).1 (remapBytes s.rot).2) (i := k) hk
    rw [sendCommands_err hget h he, Flow.movePhase_failed]
    exact ⟨_, commandEvents_getElem? hget, rfl⟩

end Sys2Proof.Machine
end

section
/-! PROOF. The framebuffer operations: CLEAR, SET_PIXEL and PIXEL_EVENT (spec/42_graphics_surface.md R150, R151, R153). -/

namespace Sys2Proof.Machine

/-! ## CLEAR -/

theorem SizeCode.fbBytes_eq (size : SizeCode) : size.fbBytes = 1024 := by
  cases size; rfl

theorem read_clearedFramebuffer (size : SizeCode) (i : Nat) :
    (clearedFramebuffer size).read i = if i < 1024 then some 0x00 else none := by
  rw [clearedFramebuffer, Memory.read_fill, SizeCode.fbBytes_eq]

theorem exec_clear {s : State} (h : s.mode = .graphics) :
    exec .clear s = .next ((s.setFb (clearedFramebuffer s.size)).returned (.ok .unit)) :=
  gate_yes (by simp [admits, h]) _

/-- Settles O37: CLEAR fills the framebuffer, and a filled memory has a byte exactly at its indices. -/
theorem clearZeroesEveryByte : Obligations.ClearZeroesEveryByte := by
  intro s hm
  refine ⟨clearedFramebuffer s.size, exec_clear hm, fun i hi => ?_, fun i hi => ?_⟩
  · rw [read_clearedFramebuffer, if_pos hi]
  · rw [read_clearedFramebuffer, if_neg (Nat.not_lt.2 hi)]

/-! ## SET_PIXEL -/

theorem exec_setPixel {s : State} (h : s.mode = .graphics) (x y : BitVec 32) (value : Byte) :
    exec (.setPixel x y value) s = conclude .unit (setPixelBody x.toNat y.toNat (decide (value ≠ 0)) s) :=
  gate_yes (by simp [admits, h]) _

theorem setPixelBody_of_outside {s : State} {x y : Nat} (h : pixelMap s.size s.rot x y = none) (on : Bool) :
    setPixelBody x y on s = .done s := by
  simp only [setPixelBody, h]

theorem setPixelBody_of_inside {s : State} {x y idx bit : Nat} {b : Byte} (h : pixelMap s.size s.rot x y = some (idx, bit))
    (hb : s.fb.read idx = some b) (on : Bool) :
    setPixelBody x y on s = .done (s.setFb (s.fb.write idx (writeBit b bit on))) := by
  simp only [setPixelBody, h, hb]

/-- In GRAPHICS the byte of a position Map gives exists (R27, R54). -/
theorem State.Inv.exists_read_pixelMap {s : State} (hinv : s.Inv) (hm : s.mode = .graphics) {x y idx bit : Nat}
    (h : pixelMap s.size s.rot x y = some (idx, bit)) : ∃ b, s.fb.read idx = some b :=
  Option.isSome_iff_exists.1
    ((Memory.read_isSome_of_covers s.fb s.size.fbBytes idx (hinv.fbPresent hm)).2 (pixelMap_bounds h).1)

/-- Settles O41: the byte Map gives exists, and it is written back with the one bit set or cleared. -/
theorem setPixelWritesOneBit : Obligations.SetPixelWritesOneBit := by
  intro s x y value hm hinv
  rw [exec_setPixel hm]
  refine ⟨fun hout => ?_, fun idx bit hin => ?_⟩
  · rw [setPixelBody_of_outside hout, conclude_done]
  · obtain ⟨b, hb⟩ := hinv.exists_read_pixelMap hm hin
    have hbits := getLsbD_writeBit b bit (decide (value ≠ 0)) (hk := (pixelMap_bounds hin).2)
    refine ⟨s.fb.write idx (writeBit b bit (decide (value ≠ 0))), b, _, ?_, hb, Memory.read_write_same .., ?_,
      fun k hk => ?_, fun a ha => Memory.read_write_other _ _ _ _ ha⟩
    · rw [setPixelBody_of_inside hin hb]
      rfl
    · rw [hbits, if_pos rfl]
    · rw [hbits, if_neg hk]

/-! ## PIXEL_EVENT -/

theorem exec_pixelEvent {s : State} (h : s.mode = .graphics) (x y : BitVec 32) (color : Bool) :
    exec (.pixelEvent x y color) s = conclude .unit (pixelEventBody x y color s) :=
  gate_yes (by simp [admits, h]) _

theorem pixelEventBody_of_negative {x y : BitVec 32} (h : x.toInt < 0 ∨ y.toInt < 0) (color : Bool) (s : State) :
    pixelEventBody x y color s = .done s :=
  if_pos (by simpa [isNegative] using h)

theorem pixelEventBody_of_nonneg {x y : BitVec 32} (hx : 0 ≤ x.toInt) (hy : 0 ≤ y.toInt) (color : Bool) (s : State) :
    pixelEventBody x y color s = setPixelBody x.toNat y.toNat color s :=
  if_neg (by simp [isNegative, hx, hy])

/-- The value SET_PIXEL is given for a colour sets the pixel exactly when the colour is on (R151, R153). -/
theorem value_of_color_ne_zero (color : Bool) : decide ((if color then 1 else 0 : Byte) ≠ 0) = color := by
  cases color <;> rfl

/-- Settles O42: a negative component drops the event, else its body is SET_PIXEL's; with the framebuffer present it ends. -/
theorem pixelEventClipsOrSetsThePixel : Obligations.PixelEventClipsOrSetsThePixel := by
  intro s x y color hm
  refine ⟨fun hneg => ?_, fun hx hy => ?_, fun hinv => ?_⟩
  · rw [exec_pixelEvent hm, pixelEventBody_of_negative hneg, conclude_done]
  · rw [exec_pixelEvent hm, pixelEventBody_of_nonneg hx hy, exec_setPixel hm, value_of_color_ne_zero]
  · obtain ⟨m, -, hnext⟩ := execPixelEvent_next (x, y, color) hm (hinv.fbPresent hm)
    exact ⟨_, hnext s.program, rfl, rfl⟩

end Sys2Proof.Machine
end

section
/-! PROOF. The reset pulse is a list of edges: each is a pin write and the wait that follows it, and the first write that fails
ends the list (spec/42_graphics_surface.md R156, spec/60_exceptions.md R203, R208). -/

namespace Sys2Proof.Machine

/-! ## A list of edges -/

/-- The edges of a list of levels, each tried after the wait of the one before it. -/
def pulseEdges (pin : PinSel) : List Level → State → Flow
  | [], s => .done s
  | l :: ls, s => (pinSet pin l s).andThen fun s1 => (delay resetDelayMs s1).andThen (pulseEdges pin ls)

/-- The events of such a list when every pin write is answered `Ok`. -/
def edgeEvents (ls : List Level) : List Event := ls.flatMap fun l => [.pin l .ok, .wait resetDelayMs]

@[simp] theorem edgeEvents_nil : edgeEvents [] = [] := rfl

@[simp] theorem edgeEvents_cons (l : Level) (ls : List Level) :
    edgeEvents (l :: ls) = .pin l .ok :: .wait resetDelayMs :: edgeEvents ls := rfl

/-- The state after the pin answered n requests and events were logged. -/
def State.pulsed (s : State) (n : Nat) (es : List Event) : State := { s with log := s.log ++ es, pin := s.pin.skip n }

@[simp] theorem State.pulsed_pin (s : State) (n : Nat) (es : List Event) : (s.pulsed n es).pin = s.pin.skip n := rfl

@[simp] theorem State.pulsed_nil (s : State) : s.pulsed 0 [] = s := by
  simp [State.pulsed]

@[simp] theorem State.pulsed_pulsed (s : State) (m n : Nat) (es fs : List Event) :
    (s.pulsed m es).pulsed n fs = s.pulsed (m + n) (es ++ fs) := by
  simp [State.pulsed]

/-- An edge whose pin write is answered `Ok` logs that write and its wait. -/
theorem pulseEdges_cons_ok {s : State} (h : s.pin.answer 0 = .reply .ok) (l : Level) (ls : List Level) :
    pulseEdges .wired (l :: ls) s = pulseEdges .wired ls (s.pulsed 1 [.pin l .ok, .wait resetDelayMs]) := by
  rw [pulseEdges, pinSet_ok l s h, State.pulsed, List.append_cons]
  rfl

theorem pulseEdges_ok (ls : List Level) (s : State) (h : s.pin.grants ls.length) :
    pulseEdges .wired ls s = .done (s.pulsed ls.length (edgeEvents ls)) := by
  induction ls generalizing s with
  | nil => simp [pulseEdges]
  | cons l ls ih =>
    have hrest : (s.pin.skip 1).grants ls.length := Agent.grants_skip (by rwa [Nat.add_comm])
    rw [pulseEdges_cons_ok (h 0 (Nat.succ_pos _)), ih _ hrest]
    simp [Nat.add_comm]

/-- The no-op pin logs the same events and asks no agent (R213). -/
theorem pulseEdges_noOp (ls : List Level) (s : State) : pulseEdges .noOp ls s = .done (s.pulsed 0 (edgeEvents ls)) := by
  induction ls generalizing s with
  | nil => simp [pulseEdges]
  | cons l ls ih =>
    have hedge : pulseEdges .noOp (l :: ls) s = pulseEdges .noOp ls (s.pulsed 0 [.pin l .ok, .wait resetDelayMs]) := by
      rw [State.pulsed, List.append_cons, Agent.skip_zero]
      rfl
    rw [hedge, ih]
    simp

/-- The first error ends the list: the edges before it and the failing write are logged, and no wait follows. -/
theorem pulseEdges_err {ls : List Level} {k : Nat} {l : Level} (hl : ls[k]? = some l) {s : State} {e : PinErr}
    (h : s.pin.grants k) (he : s.pin.answer k = .reply (.err e)) :
    pulseEdges .wired ls s =
      .failed (.pin e) (s.pulsed (k + 1) ((edgeEvents ls).take (2 * k) ++ [.pin l (.err e)])) := by
  induction ls generalizing k s with
  | nil => simp at hl
  | cons m ls ih =>
    cases k with
    | zero =>
      obtain rfl : m = l := by simpa using hl
      rw [pulseEdges, pinSet_err m s e he]
      rfl
    | succ k =>
      have hrest : (s.pin.skip 1).grants k := Agent.grants_skip (by rwa [Nat.add_comm])
      have hk : (s.pin.skip 1).answer k = .reply (.err e) := by rwa [Agent.answer_skip, Nat.add_comm]
      rw [pulseEdges_cons_ok (h 0 (Nat.succ_pos _)), ih (by simpa using hl) hrest hk]
      simp [Nat.mul_succ, Nat.add_comm 1]

/-! ## RESET -/

/-- The levels of the reset pulse (R156). -/
def pulseLevels : List Level := [.high, .low, .high]

theorem edgeEvents_pulseLevels : edgeEvents pulseLevels = pulseEvents := rfl

theorem pulseLevels_getElem? {k : Nat} (h : k < 3) : pulseLevels[k]? = some (if k = 1 then .low else .high) := by
  interval_cases k <;> rfl

theorem resetPulse_eq (pin : PinSel) : resetPulse pin = pulseEdges pin pulseLevels := rfl

theorem exec_reset {s : State} (h : s.mode = .graphics) (pin : PinSel) :
    exec (.reset pin) s =
      conclude .unit ((pulseEdges pin pulseLevels s).movePhase (fun _ => .resetNotInit) fun _ => .unreset) := by
  rw [← resetPulse_eq]
  exact gate_yes (by simp [admits, h]) _

/-- Settles O49: the pulse is a list of three edges, and its outcome moves `PHASE`. -/
theorem resetPulsesThePin : Obligations.ResetPulsesThePin := by
  intro s hm
  simp only [exec_reset hm, ← edgeEvents_pulseLevels]
  refine ⟨fun h => ?_, ?_, fun k e hk h he => ?_⟩
  · rw [pulseEdges_ok pulseLevels s h]
    rfl
  · rw [pulseEdges_noOp, State.pulsed, Agent.skip_zero]
    rfl
  · rw [pulseEdges_err (pulseLevels_getElem? hk) h he, List.append_assoc]
    rfl

end Sys2Proof.Machine
end

section
/-! PROOF. The PHASE table (spec/42_graphics_surface.md R159): which bodies keep PHASE, and how the outcome of RESET and of an
initialization moves it. -/

namespace Sys2Proof.Machine

/-! ## The bodies that keep PHASE -/

theorem Sends.keeps_phase {s u : State} (h : Sends s u) : u.phase = s.phase := by
  obtain ⟨es, rfl, -⟩ := h
  rfl

theorem Draws.keeps_phase {s u : State} (h : Draws s u) : u.phase = s.phase := by
  obtain ⟨c, r, es, rfl, -⟩ := h
  rfl

theorem Flushes.keeps_phase {s u : State} (h : Flushes s u) : u.phase = s.phase := by
  obtain rfl | ⟨sc, sr, ec, er, c, r, es, rfl, -⟩ := h <;> rfl

theorem Pulses.keeps_phase {s u : State} (h : Pulses s u) : u.phase = s.phase := by
  obtain ⟨a, es, rfl, -⟩ := h
  rfl

/-- Only CONNECT, RESET and the initializations have a body that writes PHASE (R159). -/
theorem BodyLeaves.keeps_phase {i : Instr} {s u : State} (h : BodyLeaves i s u) (hconnect : ∀ cfg, i ≠ .connect cfg)
    (hreset : ∀ pin, i ≠ .reset pin) (hinit : i ≠ .init) (hinitRaw : i ≠ .initRaw) : u.phase = s.phase := by
  cases i with
  | connect cfg => exact absurd rfl (hconnect cfg)
  | reset pin => exact absurd rfl (hreset pin)
  | init => exact absurd rfl hinit
  | initRaw => exact absurd rfl hinitRaw
  | clockDiv | contrast | precharge | scrollOn | scrollOff | cmdDisplayOn | cmdDisplayOff | segRemap1 | segRemap0
  | comReverse | comNormal | pageStart | colLow | colHigh | displayOn | setContrast =>
    exact Sends.keeps_phase h
  | setRotation rot => exact Sends.keeps_phase (s := s.setRot rot) h
  | draw => exact Draws.keeps_phase h
  | flush => exact Flushes.keeps_phase h
  | setDrawArea sc sr ec er =>
    obtain rfl | ⟨-, hu⟩ := h
    · rfl
    · exact hu.keeps_phase
  | setPixel | pixelEvent =>
    obtain ⟨-, m, rfl, -⟩ := h
    rfl
  | clear =>
    obtain ⟨-, rfl⟩ := h
    rfl
  | withSize | withRotation | getDimensions | release | enterGraphics | unwrap =>
    obtain rfl := h
    rfl

/-- Recording an outcome does not move PHASE: the next state's is the one the body left. -/
theorem exec_phase_of_body {i : Instr} {s t : State} (h : exec i s = .next t) (ht : t.refused = none) :
    ∃ u, BodyLeaves i s u ∧ t.phase = u.phase := by
  obtain ⟨r, rfl⟩ | ⟨u, hu, hout⟩ := exec_cases h
  · simp at ht
  · obtain ⟨r, rfl⟩ | ⟨r, rfl⟩ := hout <;> exact ⟨u, hu, rfl⟩

/-! ## The bodies whose outcome moves PHASE -/

/-- A body that raises no fault: it returns `Ok` or `Err`, or never returns. -/
def Flow.NoFault (x : Flow) : Prop := ∀ r u, x ≠ .raised r u

theorem Flow.NoFault.andThen {x : Flow} {k : State → Flow} (hx : x.NoFault) (hk : ∀ s, (k s).NoFault) :
    (x.andThen k).NoFault := by
  cases x with
  | done s => exact hk s
  | failed e s => exact fun _ _ => nofun
  | raised r s => exact absurd rfl (hx r s)
  | stuck f => exact fun _ _ => nofun

theorem transportWrite_noFault (event : Reply TransportErr → Event) (s : State) : (transportWrite event s).NoFault := by
  unfold transportWrite
  split <;> exact fun _ _ => nofun

theorem pinSet_noFault (pin : PinSel) (l : Level) (s : State) : (pinSet pin l s).NoFault := by
  cases pin with
  | noOp => exact fun _ _ => nofun
  | wired =>
    simp only [pinSet]
    split <;> exact fun _ _ => nofun

theorem sendCommands_noFault (cs : List (List Byte)) (s : State) : (sendCommands cs s).NoFault := by
  induction cs generalizing s with
  | nil => exact fun _ _ => nofun
  | cons c cs ih => exact (transportWrite_noFault _ s).andThen ih

theorem pulseEdges_noFault (pin : PinSel) (ls : List Level) (s : State) : (pulseEdges pin ls s).NoFault := by
  induction ls generalizing s with
  | nil => exact fun _ _ => nofun
  | cons l ls ih => exact (pinSet_noFault pin l s).andThen fun s1 => ih (s1.record (.wait resetDelayMs))

theorem resetPulse_noFault (pin : PinSel) (s : State) : (resetPulse pin s).NoFault := by
  rw [resetPulse_eq]
  exact pulseEdges_noFault pin pulseLevels s

theorem initSequence_noFault (s : State) : (initSequence s).NoFault := by
  rw [initSequence_eq]
  exact sendCommands_noFault _ s

/-- A body that keeps PHASE and raises no fault moves PHASE at its end by its outcome (R159). -/
theorem phase_of_movePhase {x : Flow} {onOk onErr : Phase → Phase} {p : Phase} {t : State}
    (hp : x.Leaves fun u => u.phase = p) (hx : x.NoFault) (h : conclude .unit (x.movePhase onOk onErr) = .next t) :
    (t.result = some (.ok .unit) → t.phase = onOk p) ∧ (t.result ≠ some (.ok .unit) → t.phase = onErr p) := by
  cases x with
  | done u =>
    obtain rfl : _ = t := Host.Outcome.next.inj h
    exact ⟨fun _ => congrArg onOk hp, fun hr => absurd rfl hr⟩
  | failed e u =>
    obtain rfl : _ = t := Host.Outcome.next.inj h
    exact ⟨fun hr => absurd hr (by simp), fun _ => congrArg onErr hp⟩
  | raised r u => exact absurd rfl (hx r u)
  | stuck f => cases h

/-- An operation that was not refused ran. -/
theorem run_of_gate {op : HostOp} {s t : State} {run : StepOutcome} (h : gate op s run = .next t) (ht : t.refused = none) :
    run = .next t := by
  obtain ⟨-, hrun⟩ | ⟨-, rfl⟩ := gate_next h
  · exact hrun
  · simp at ht

theorem exec_reset_phase {pin : PinSel} {s t : State} (h : exec (.reset pin) s = .next t) (ht : t.refused = none) :
    (t.result = some (.ok .unit) → t.phase = .resetNotInit) ∧ (t.result ≠ some (.ok .unit) → t.phase = .unreset) :=
  phase_of_movePhase ((resetPulse_pulses pin s).mono fun _ hu => hu.keeps_phase) (resetPulse_noFault pin s)
    (run_of_gate h ht)

theorem initBody_phase {s t : State} (h : conclude .unit (initBody s) = .next t) :
    (t.result = some (.ok .unit) → t.phase = if s.phase = .unreset then .unreset else .ready) ∧
      (t.result ≠ some (.ok .unit) → t.phase = .unreset) := by
  rw [← phaseAfterInit_eq]
  exact phase_of_movePhase ((initSequence_sends s).mono fun _ hu => hu.keeps_phase) (initSequence_noFault s) h

/-- Settles O57: CONNECT's registers hold it, RESET and the initializations move it by their outcome, and every other body keeps
it. -/
theorem phaseMovesByTheTable : Obligations.PhaseMovesByTheTable := by
  intro i s t h _ ht
  refine ⟨?_, ?_, ?_, fun hconnect hreset hinit hinitRaw => ?_⟩
  · rintro cfg rfl
    obtain ⟨u, ⟨-, rfl⟩, hphase⟩ := exec_phase_of_body h ht
    exact hphase
  · rintro pin rfl
    exact exec_reset_phase h ht
  · rintro (rfl | rfl) <;> exact initBody_phase (run_of_gate h ht)
  · obtain ⟨u, hu, hphase⟩ := exec_phase_of_body h ht
    exact hphase.trans (hu.keeps_phase hconnect hreset hinit hinitRaw)

end Sys2Proof.Machine
end

section
/-! PROOF. The opcode table: an instruction is read back from its own bytes, and the rows of the commands are disjoint
(spec/30_encoding.md R70 to R77). -/

namespace Sys2Proof.Machine

/-! ## Reading an instruction back -/

/-- A write that holds one well-formed command is that command: nothing is left over after it (R70). -/
theorem decodeCommand_encode {i : Instr} (hw : i.wf = true) (hc : i.isCommand = true) :
    decodeCommand (encode i).bytes = .ok i := by
  have h := decodeFirst_encode_append hw hc []
  rw [List.append_nil] at h
  simp only [decodeCommand, h]

theorem decode_hostBytes {op : HostOp} {operands : List Byte} {i : Instr} (h : decodeOperands op operands = some i) :
    decode (hostBytes op operands) = .ok i := by
  simp only [decode, hostBytes, decodeHost, hostOpOf_code, h]

/-- Each operation's operands are read back from the bytes the encoder lays them out in (log 2). -/
theorem decode_encode_of_hostOperation {i : Instr} (hc : i.isCommand = false) : decode (encode i) = .ok i := by
  cases i with
  | connect | withSize | withRotation | reset | setRotation | displayOn | pixelEvent =>
    exact decode_hostBytes (by simp [decodeOperands, bytes32])
  | setPixel => exact decode_hostBytes (by simp [decodeOperands, bytes32])
  | init | initRaw | clear | flush | setDrawArea | draw | getDimensions | setContrast | release | enterGraphics | unwrap =>
    exact decode_hostBytes rfl
  | clockDiv | contrast | precharge | scrollOn | scrollOff | cmdDisplayOn | cmdDisplayOff | segRemap1 | segRemap0
  | comReverse | comNormal | pageStart | colLow | colHigh =>
    exact absurd hc.symm Bool.false_ne_true

theorem space_of_isCommand {i : Instr} (hc : i.isCommand = true) : (encode i).space = .controllerCommand :=
  of_decide_eq_true hc

/-- Settles O1: a command is read off its own bytes with none left over, and a host operation by its code and operands. -/
theorem decodeOfEncodeIsTheInstruction : Obligations.DecodeOfEncodeIsTheInstruction := by
  intro i hw
  cases hc : i.isCommand with
  | true =>
    rw [decode, space_of_isCommand hc]
    exact decodeCommand_encode hw hc
  | false => exact decode_encode_of_hostOperation hc

/-! ## The rows of the commands -/

/-- A row that matches a byte is the row the opcode map gives for it, so no other row matches it (R74). -/
theorem commandOf_of_covers {c : Command} {b : Byte} (h : c.covers b = true) : commandOf b = some c := by
  cases c with
  | pageStart | colLow | colHigh => revert b; decide
  | clockDiv | contrast | precharge | scrollOn | scrollOff | displayOn | displayOff | segRemap1 | segRemap0
  | comReverse | comNormal =>
    obtain rfl := eq_pattern_of_covers rfl h
    rfl

/-- A fact about the bytes of a range holds when it holds of the numbers in the range. -/
theorem byte_range {P : Byte → Prop} {lo hi : Nat} (h : ∀ k, lo ≤ k → k ≤ hi → P (BitVec.ofNat 8 k)) (b : Byte)
    (hlo : lo ≤ b.toNat) (hhi : b.toNat ≤ hi) : P b := by
  simpa using h b.toNat hlo hhi

/-- Settles O3: the opcode map gives the row of every match, and the ranges are read off it byte by byte. -/
theorem commandRowsAreDisjoint : Obligations.CommandRowsAreDisjoint := by
  refine ⟨fun b c d hc hd => ?_, fun b => ⟨fun h => ?_, ?_, ?_, ?_⟩⟩
  · exact Option.some.inj ((commandOf_of_covers hc).symm.trans (commandOf_of_covers hd))
  · exact byte_range (P := fun b => commandOf b = some .colLow) (fun k _ hk => by interval_cases k <;> rfl) b (Nat.zero_le _) h
  all_goals
    refine byte_range (P := fun b => commandOf b = _) (fun k hlo hhi => ?_) b
    interval_cases k <;> rfl

/-- Settles O4: the decoder, evaluated on each word. -/
theorem specWordsDecode : Obligations.SpecWordsDecode :=
  ⟨rfl, rfl, rfl, rfl, rfl, rfl, rfl, rfl, rfl, rfl⟩

end Sys2Proof.Machine
end

section
/-! PROOF. Every instruction is one body under one mode check (spec/30_encoding.md R77, spec/60_exceptions.md R205): the body, the
value it returns, and what is answered where the mode does not admit it. -/

namespace Sys2Proof.Machine

/-! ## The body of an instruction -/

/-- The host operation an instruction is; none for a controller command. -/
def operationOf : Instr → Option HostOp
  | .clockDiv _ | .contrast _ | .precharge _ | .scrollOn | .scrollOff | .cmdDisplayOn | .cmdDisplayOff | .segRemap1
  | .segRemap0 | .comReverse | .comNormal | .pageStart _ | .colLow _ | .colHigh _ => none
  | .connect _ => some .connect
  | .withSize _ _ => some .withSize
  | .withRotation _ _ => some .withRotation
  | .reset _ => some .reset
  | .init => some .init
  | .initRaw => some .initRaw
  | .clear => some .clear
  | .setPixel _ _ _ => some .setPixel
  | .pixelEvent _ _ _ => some .pixelEvent
  | .flush => some .flush
  | .setDrawArea _ _ _ _ => some .setDrawArea
  | .draw _ => some .draw
  | .setRotation _ => some .setRotation
  | .getDimensions => some .getDimensions
  | .displayOn _ => some .displayOn
  | .setContrast _ => some .setContrast
  | .release => some .release
  | .enterGraphics => some .enterGraphics
  | .unwrap => some .unwrap

/-- What an instruction does once its mode admits it. -/
def bodyOf : Instr → State → Flow
  | .clockDiv v => sendClockDiv v
  | .contrast v => sendContrast v
  | .precharge v => sendPrecharge v
  | .scrollOn => sendScroll true
  | .scrollOff => sendScroll false
  | .cmdDisplayOn => sendDisplay true
  | .cmdDisplayOff => sendDisplay false
  | .segRemap1 => sendSegRemap true
  | .segRemap0 => sendSegRemap false
  | .comReverse => sendComDir true
  | .comNormal => sendComDir false
  | .pageStart p => sendPageStart p
  | .colLow n => sendColLow n
  | .colHigh n => sendColHigh n
  | .connect cfg => fun s => .done (s.openSession cfg)
  | .withSize _ _ => .done
  | .withRotation _ _ => .done
  | .reset pin => resetBody pin
  | .init => initBody
  | .initRaw => initBody
  | .clear => fun s => .done (s.setFb (clearedFramebuffer s.size))
  | .setPixel x y value => setPixelBody x.toNat y.toNat (decide (value ≠ 0))
  | .pixelEvent x y color => pixelEventBody x y color
  | .flush => flushBody flushDims
  | .setDrawArea sc sr ec er => drawAreaBody sc sr ec er
  | .draw bytes => drawBody bytes
  | .setRotation rot => rotationBody rot
  | .getDimensions => .done
  | .displayOn on => sendDisplay on
  | .setContrast v => sendContrast v
  | .release => fun s => .done ((s.setMode .raw).setFb [])
  | .enterGraphics => fun s =>
    .done (((s.setMode .graphics).setFb (freshFramebuffer s.size s.fresh)).drawFree s.size.fbBytes)
  | .unwrap => fun s => .done s.endSession

/-- The value an instruction returns when its body ends (R77). -/
def valueOf (i : Instr) (s : State) : OpValue :=
  match i with
  | .withSize cfg size => .config (withSizeValue cfg size)
  | .withRotation cfg rot => .config (withRotationValue cfg rot)
  | .getDimensions => .dimensions (dimensionsOf s.size s.rot).1 (dimensionsOf s.size s.rot).2
  | .unwrap => .transport
  | _ => .unit

theorem exec_of_operation {i : Instr} {op : HostOp} (h : operationOf i = some op) (s : State) :
    exec i s = gate op s (conclude (valueOf i s) (bodyOf i s)) := by
  cases i <;> cases h <;> rfl

theorem exec_of_command {i : Instr} (h : operationOf i = none) (s : State) : exec i s = runCommand (bodyOf i) s := by
  cases i <;> cases h <;> rfl

theorem valueOf_of_command {i : Instr} (h : operationOf i = none) (s : State) : valueOf i s = .unit := by
  cases i <;> cases h <;> rfl

theorem operationOf_eq_none_iff {i : Instr} : operationOf i = none ↔ i.isCommand = true := by
  cases i <;> simp [operationOf, Instr.isCommand, encode, commandBytes, hostBytes]

/-! ## The mode check -/

/-- The modes an instruction is admitted in: a host operation where R77 lists it, a controller command in any session
(log 5). -/
def admitted (i : Instr) (m : Mode) : Bool :=
  match operationOf i with
  | some op => admits op m
  | none => m != .none

theorem exec_operation {i : Instr} {op : HostOp} {s : State} (hop : operationOf i = some op) (h : admits op s.mode = true) :
    exec i s = conclude (valueOf i s) (bodyOf i s) := by
  rw [exec_of_operation hop, gate_yes h]

/-- An instruction that its mode admits is its body, concluded. -/
theorem exec_admitted {i : Instr} {s : State} (h : admitted i s.mode = true) :
    exec i s = conclude (valueOf i s) (bodyOf i s) := by
  unfold admitted at h
  split at h
  · exact exec_operation ‹_› h
  · rw [exec_of_command ‹_›, runCommand_session (by simpa using h), valueOf_of_command ‹_›]

/-- An operation in a mode that R77 does not list for it is refused, whatever its operands. -/
theorem exec_denied {i : Instr} {op : HostOp} {s : State} (hop : operationOf i = some op) (h : admits op s.mode = false) :
    exec i s = .next (s.setRefused (.modeRefused op.code s.mode)) := by
  rw [exec_of_operation hop, gate_no h]

/-- What an instruction that answers a next state was: refused with nothing else changed, or admitted and its body concluded. -/
theorem exec_next {i : Instr} {s t : State} (h : exec i s = .next t) :
    (∃ op, operationOf i = some op ∧ t = s.setRefused (.modeRefused op.code s.mode)) ∨
      (admitted i s.mode = true ∧ conclude (valueOf i s) (bodyOf i s) = .next t) := by
  by_cases ha : admitted i s.mode = true
  · exact .inr ⟨ha, by rwa [exec_admitted ha] at h⟩
  · unfold admitted at ha
    split at ha
    · next op hop =>
      rw [exec_denied hop (by simpa using ha)] at h
      exact .inl ⟨op, hop, (Host.Outcome.next.inj h).symm⟩
    · next hop =>
      rw [exec_of_command hop, runCommand_noSession (by simpa using ha)] at h
      cases h

end Sys2Proof.Machine
end

section
/-! PROOF. What every step keeps: the log only grows, by events the block may emit, and the invariant holds on (spec/10_state.md
R26, R27, R31, spec/20_memory.md R59, spec/30_encoding.md R75). -/

namespace Sys2Proof.Machine

/-! ## The log, the position and the result -/

/-- Between s and u events the block may emit were logged, and the program, the position and the result stayed. -/
structure LogGrows (s u : State) : Prop where
  log      : ∃ es, u.log = s.log ++ es ∧ ∀ e ∈ es, e.legal = true
  pos      : u.pos = s.pos
  result   : u.result = s.result

theorem LogGrows.of_same {s u : State} (hlog : u.log = s.log) (hpos : u.pos = s.pos) (hresult : u.result = s.result) :
    LogGrows s u := ⟨⟨[], by simpa using hlog, by simp⟩, hpos, hresult⟩

theorem Sends.logGrows {s u : State} (h : Sends s u) : LogGrows s u := by
  obtain ⟨es, rfl, hes⟩ := h
  exact ⟨⟨es, rfl, hes⟩, rfl, rfl⟩

theorem Draws.logGrows {s u : State} (h : Draws s u) : LogGrows s u := by
  obtain ⟨c, r, es, rfl, hes, -⟩ := h
  exact ⟨⟨es, rfl, hes⟩, rfl, rfl⟩

theorem Flushes.logGrows {s u : State} (h : Flushes s u) : LogGrows s u := by
  obtain rfl | ⟨sc, sr, ec, er, c, r, es, rfl, hes, -⟩ := h
  · exact .of_same rfl rfl rfl
  · exact ⟨⟨es, rfl, hes⟩, rfl, rfl⟩

theorem Pulses.logGrows {s u : State} (h : Pulses s u) : LogGrows s u := by
  obtain ⟨a, es, rfl, hes⟩ := h
  exact ⟨⟨es, rfl, hes⟩, rfl, rfl⟩

/-- Whatever the body of an instruction does, it logs events the block may emit, and only its outcome moves the position and
hands over a result. -/
theorem BodyLeaves.logGrows {i : Instr} {s u : State} (h : BodyLeaves i s u) : LogGrows s u := by
  cases i with
  | clockDiv | contrast | precharge | scrollOn | scrollOff | cmdDisplayOn | cmdDisplayOff | segRemap1 | segRemap0
  | comReverse | comNormal | pageStart | colLow | colHigh | displayOn | setContrast => exact Sends.logGrows h
  | setRotation rot =>
    obtain ⟨hlog, hpos, hresult⟩ := Sends.logGrows (s := s.setRot rot) h
    exact ⟨hlog, hpos, hresult⟩
  | draw => exact Draws.logGrows h
  | flush => exact Flushes.logGrows h
  | init | initRaw =>
    obtain ⟨v, p, hv, rfl⟩ := h
    obtain ⟨hlog, hpos, hresult⟩ := hv.logGrows
    exact ⟨hlog, hpos, hresult⟩
  | reset =>
    obtain ⟨-, v, p, hv, rfl⟩ := h
    obtain ⟨hlog, hpos, hresult⟩ := hv.logGrows
    exact ⟨hlog, hpos, hresult⟩
  | setDrawArea sc sr ec er =>
    obtain rfl | ⟨-, hu⟩ := h
    · exact .of_same rfl rfl rfl
    · obtain ⟨hlog, hpos, hresult⟩ := hu.logGrows
      exact ⟨hlog, hpos, hresult⟩
  | setPixel | pixelEvent =>
    obtain ⟨-, m, rfl, -⟩ := h
    exact .of_same rfl rfl rfl
  | connect | clear =>
    obtain ⟨-, rfl⟩ := h
    exact .of_same rfl rfl rfl
  | withSize | withRotation | getDimensions | release | enterGraphics | unwrap =>
    obtain rfl := h
    exact .of_same rfl rfl rfl

theorem exec_log {i : Instr} {s t : State} (h : exec i s = .next t) :
    ∃ es, t.log = s.log ++ es ∧ ∀ e ∈ es, e.legal = true := by
  obtain ⟨r, rfl⟩ | ⟨u, hu, ⟨r, rfl⟩ | ⟨r, rfl⟩⟩ := exec_cases h
  · exact ⟨[], by simp, by simp⟩
  · exact hu.logGrows.log
  · exact hu.logGrows.log

/-- Settles O52: an entry of the program that is no operation logs nothing, and an operation what its body logs. -/
theorem logOnlyGrowsByLegalEvents : Obligations.LogOnlyGrowsByLegalEvents := by
  intro s t h
  obtain ⟨-, -, e, -, hrun⟩ := step_cases h
  obtain ⟨r, rfl⟩ | ⟨i, hexec⟩ | rfl | ⟨i, es, hexec⟩ | rfl := runEntry_cases hrun
  · exact ⟨[], by simp, by simp⟩
  · exact exec_log hexec
  · exact ⟨[], by simp, by simp⟩
  · exact exec_log (s := s.splice es) hexec
  · exact ⟨[], by simp, by simp⟩

/-- Settles O8: a return moves the position, and a recorded fault or refusal leaves what the body kept. -/
theorem positionMovesExactlyOnReturn : Obligations.PositionMovesExactlyOnReturn := by
  intro i s t hf hr h
  obtain ⟨r, rfl⟩ | ⟨u, hu, hout⟩ := exec_cases h
  · exact ⟨fun ht => absurd ht.2 (by simp), fun _ => ⟨rfl, rfl⟩⟩
  · obtain ⟨hfu, hru⟩ := hu.keeps_fault_refused
    obtain ⟨-, hpos, hresult⟩ := hu.logGrows
    obtain ⟨r, rfl⟩ | ⟨r, rfl⟩ := hout
    · exact ⟨fun _ => congrArg (· + 1) hpos, fun ht => by simp [hfu, hru, hf, hr] at ht⟩
    · exact ⟨fun ht => absurd ht.1 (by simp), fun _ => ⟨hpos, hresult⟩⟩

/-! ## The invariant -/

/-- The window's rules speak of its registers and the cursor only. -/
theorem State.WindowOk.of_same {s t : State} (h : s.WindowOk) (hsc : t.winStartCol = s.winStartCol)
    (hsr : t.winStartRow = s.winStartRow) (hec : t.winEndCol = s.winEndCol) (her : t.winEndRow = s.winEndRow)
    (hc : t.curCol = s.curCol) (hr : t.curRow = s.curRow) : t.WindowOk := by
  obtain ⟨h1, h2, h3, h4, h5, h6, h7⟩ := h
  constructor <;> simpa only [hsc, hsr, hec, her, hc, hr]

/-- The invariant speaks of the registers and the log only. -/
theorem State.Inv.of_same {s t : State} (h : s.Inv) (hsize : t.size = s.size) (hmode : t.mode = s.mode) (hfb : t.fb = s.fb)
    (hlog : t.log = s.log) (hvalid : t.winValid = s.winValid) (hwindow : s.WindowOk → t.WindowOk) : t.Inv where
  fbPresent := by simpa only [hsize, hmode, hfb] using h.fbPresent
  fbAbsent := by simpa only [hmode, hfb] using h.fbAbsent
  window := fun hv => hwindow (h.window (hvalid ▸ hv))
  events := by simpa only [hlog] using h.events

/-- Events the block may emit keep the invariant. -/
theorem State.Inv.logged {s t : State} (h : s.Inv) {es : List Event} (hes : ∀ e ∈ es, e.legal = true)
    (ht : ({ t with log := s.log } : State).Inv) (hlog : t.log = s.log ++ es) : t.Inv where
  fbPresent := ht.fbPresent
  fbAbsent := ht.fbAbsent
  window := fun hv => (ht.window hv).of_same rfl rfl rfl rfl rfl rfl
  events := fun e he => (List.mem_append.1 (hlog ▸ he)).elim (h.events e) (hes e)

theorem State.Inv.setPhase {s : State} (h : s.Inv) (p : Phase) : (s.setPhase p).Inv :=
  h.of_same rfl rfl rfl rfl rfl fun hw => hw.of_same rfl rfl rfl rfl rfl rfl

theorem State.Inv.setRot {s : State} (h : s.Inv) (r : Rotation) : (s.setRot r).Inv :=
  h.of_same rfl rfl rfl rfl rfl fun hw => hw.of_same rfl rfl rfl rfl rfl rfl

/-- A mode and a framebuffer that go together keep the invariant. -/
theorem State.Inv.setMode_setFb {s : State} (h : s.Inv) {m : Mode} {fb : Memory}
    (hpresent : m = .graphics → fb.covers s.size.fbBytes) (habsent : m ≠ .graphics → fb = []) :
    ((s.setMode m).setFb fb).Inv where
  fbPresent := hpresent
  fbAbsent := habsent
  window := fun hv => (h.window hv).of_same rfl rfl rfl rfl rfl rfl
  events := h.events

/-- In GRAPHICS, a whole framebuffer keeps the invariant. -/
theorem State.Inv.setFb {s : State} (h : s.Inv) (hm : s.mode = .graphics) {m : Memory} (hcov : m.covers s.size.fbBytes) :
    (s.setFb m).Inv :=
  h.setMode_setFb (m := s.mode) (fun _ => hcov) fun hne => absurd hm hne

/-- A recorded window that holds its cursor keeps the invariant. -/
theorem State.Inv.setWindow {s : State} (h : s.Inv) {sc sr ec er c r : Byte}
    (hw : ((s.setWindow sc sr ec er).setCursor c r).WindowOk) : ((s.setWindow sc sr ec er).setCursor c r).Inv where
  fbPresent := h.fbPresent
  fbAbsent := h.fbAbsent
  window := fun _ => hw
  events := h.events

theorem State.Inv.sent {s : State} (h : s.Inv) {es : List Event} (hes : ∀ e ∈ es, e.legal = true) : (s.sent es).Inv :=
  h.logged hes (h.of_same rfl rfl rfl rfl rfl fun hw => hw.of_same rfl rfl rfl rfl rfl rfl) rfl

theorem Sends.inv {s u : State} (h : Sends s u) (hinv : s.Inv) : u.Inv := by
  obtain ⟨es, rfl, hes⟩ := h
  exact hinv.sent hes

theorem Draws.inv {s u : State} (h : Draws s u) (hinv : s.Inv) : u.Inv := by
  obtain ⟨c, r, es, rfl, hes, hw⟩ := h
  exact State.Inv.sent (s := s.setCursor c r) (hinv.of_same rfl rfl rfl rfl rfl hw) hes

theorem Flushes.inv {s u : State} (h : Flushes s u) (hinv : s.Inv) : u.Inv := by
  obtain rfl | ⟨sc, sr, ec, er, c, r, es, rfl, hes, hw⟩ := h
  · exact hinv
  · exact (hinv.setWindow hw).sent hes

theorem Pulses.inv {s u : State} (h : Pulses s u) (hinv : s.Inv) : u.Inv := by
  obtain ⟨a, es, rfl, hes⟩ := h
  exact hinv.logged hes (hinv.of_same rfl rfl rfl rfl rfl fun hw => hw.of_same rfl rfl rfl rfl rfl rfl) rfl

/-- CONNECT's registers meet the invariant, whatever the session before them (R193). -/
theorem State.Inv.openSession {s : State} (h : s.Inv) (cfg : PanelConfig) : (s.openSession cfg).Inv where
  fbPresent := fun _ => freshFramebuffer_covers _ _
  fbAbsent := fun hne => absurd rfl hne
  window := fun hv => absurd hv Bool.false_ne_true
  events := h.events

theorem BodyLeaves.inv {i : Instr} {s u : State} (h : BodyLeaves i s u) (hinv : s.Inv) : u.Inv := by
  cases i with
  | clockDiv | contrast | precharge | scrollOn | scrollOff | cmdDisplayOn | cmdDisplayOff | segRemap1 | segRemap0
  | comReverse | comNormal | pageStart | colLow | colHigh | displayOn | setContrast => exact Sends.inv h hinv
  | setRotation rot => exact Sends.inv h (hinv.setRot rot)
  | draw => exact Draws.inv h hinv
  | flush => exact Flushes.inv h hinv
  | init | initRaw =>
    obtain ⟨v, p, hv, rfl⟩ := h
    exact (hv.inv hinv).setPhase p
  | reset =>
    obtain ⟨-, v, p, hv, rfl⟩ := h
    exact (hv.inv hinv).setPhase p
  | setDrawArea sc sr ec er =>
    obtain rfl | ⟨hw, hu⟩ := h
    · exact hinv
    · exact hu.inv (hinv.setWindow hw)
  | setPixel | pixelEvent =>
    obtain ⟨hm, m, rfl, hcov⟩ := h
    exact hinv.setFb hm (hcov (hinv.fbPresent hm))
  | connect cfg =>
    obtain ⟨-, rfl⟩ := h
    exact hinv.openSession cfg
  | clear =>
    obtain ⟨hm, rfl⟩ := h
    exact hinv.setFb hm (clearedFramebuffer_covers s.size)
  | withSize | withRotation | getDimensions =>
    obtain rfl := h
    exact hinv
  | release =>
    obtain rfl := h
    exact hinv.setMode_setFb nofun fun _ => rfl
  | enterGraphics =>
    obtain rfl := h
    exact (hinv.setMode_setFb (m := .graphics) (fun _ => freshFramebuffer_covers s.size s.fresh) fun hne => absurd rfl hne).of_same
      rfl rfl rfl rfl rfl fun hw => hw.of_same rfl rfl rfl rfl rfl rfl
  | unwrap =>
    obtain rfl := h
    exact hinv.setMode_setFb (m := .none) nofun fun _ => rfl

/-- What is recorded of an outcome is no part of the invariant. -/
theorem exec_inv {i : Instr} {s t : State} (h : exec i s = .next t) (hinv : s.Inv) : t.Inv := by
  obtain ⟨r, rfl⟩ | ⟨u, hu, ⟨r, rfl⟩ | ⟨r, rfl⟩⟩ := exec_cases h
  · exact hinv.of_same rfl rfl rfl rfl rfl fun hw => hw.of_same rfl rfl rfl rfl rfl rfl
  all_goals exact (hu.inv hinv).of_same rfl rfl rfl rfl rfl fun hw => hw.of_same rfl rfl rfl rfl rfl rfl

theorem State.Inv.splice {s : State} (h : s.Inv) (es : List Entry) : (s.splice es).Inv :=
  h.of_same rfl rfl rfl rfl rfl fun hw => hw.of_same rfl rfl rfl rfl rfl rfl

/-- Settles O51: an operation keeps the invariant by its body, and the other entries of a program write no more than the mode
and the framebuffer. -/
theorem stepKeepsTheInvariant : Obligations.StepKeepsTheInvariant := by
  intro s t hinv h
  obtain ⟨-, -, e, -, hrun⟩ := step_cases h
  obtain ⟨r, rfl⟩ | ⟨i, hexec⟩ | rfl | ⟨i, es, hexec⟩ | rfl := runEntry_cases hrun
  · exact hinv.of_same rfl rfl rfl rfl rfl fun hw => hw.of_same rfl rfl rfl rfl rfl rfl
  · exact exec_inv hexec hinv
  · exact (hinv.setMode_setFb (m := .none) (fb := []) nofun fun _ => rfl).of_same rfl rfl rfl rfl rfl fun hw =>
      hw.of_same rfl rfl rfl rfl rfl rfl
  · exact exec_inv hexec (hinv.splice es)
  · exact hinv.splice []

/-! ## The registers an instruction can change -/

/-- The registers in which t differs from s are such as the instruction may write (R212, R216). -/
def WritesItsRegisters (i : Instr) (s t : State) : Prop :=
  (t.size ≠ s.size → ∃ cfg, i = .connect cfg) ∧
  (t.rot ≠ s.rot → (∃ cfg, i = .connect cfg) ∨ ∃ rot, i = .setRotation rot) ∧
  (t.mode ≠ s.mode → (∃ cfg, i = .connect cfg) ∨ i = .release ∨ i = .enterGraphics ∨ i = .unwrap) ∧
  (t.winStartCol ≠ s.winStartCol ∨ t.winStartRow ≠ s.winStartRow ∨ t.winEndCol ≠ s.winEndCol ∨
      t.winEndRow ≠ s.winEndRow ∨ t.winValid ≠ s.winValid →
    (∃ cfg, i = .connect cfg) ∨ (∃ a b c d, i = .setDrawArea a b c d) ∨ i = .flush) ∧
  (t.fb ≠ s.fb →
    (∃ cfg, i = .connect cfg) ∨ i = .clear ∨ (∃ x y v, i = .setPixel x y v) ∨ (∃ x y c, i = .pixelEvent x y c) ∨
      i = .release ∨ i = .enterGraphics ∨ i = .unwrap)

theorem Sends.writesItsRegisters (i : Instr) {s u : State} (h : Sends s u) : WritesItsRegisters i s u := by
  obtain ⟨es, rfl, -⟩ := h
  simp [WritesItsRegisters]

/-- The frame of each body names the registers it writes. -/
theorem BodyLeaves.writesItsRegisters {i : Instr} {s u : State} (h : BodyLeaves i s u) : WritesItsRegisters i s u := by
  cases i with
  | clockDiv | contrast | precharge | scrollOn | scrollOff | cmdDisplayOn | cmdDisplayOff | segRemap1 | segRemap0
  | comReverse | comNormal | pageStart | colLow | colHigh | displayOn | setContrast => exact Sends.writesItsRegisters _ h
  | setRotation rot =>
    obtain ⟨es, rfl, -⟩ := h
    simp [WritesItsRegisters]
  | draw =>
    obtain ⟨c, r, es, rfl, -⟩ := h
    simp [WritesItsRegisters]
  | flush =>
    obtain rfl | ⟨sc, sr, ec, er, c, r, es, rfl, -⟩ := h <;> simp [WritesItsRegisters]
  | init | initRaw =>
    obtain ⟨v, p, hv, rfl⟩ := h
    exact hv.writesItsRegisters _
  | reset =>
    obtain ⟨-, v, p, ⟨a, es, rfl, -⟩, rfl⟩ := h
    simp [WritesItsRegisters]
  | setDrawArea sc sr ec er =>
    obtain rfl | ⟨-, es, rfl, -⟩ := h <;> simp [WritesItsRegisters]
  | setPixel | pixelEvent =>
    obtain ⟨-, m, rfl, -⟩ := h
    simp [WritesItsRegisters]
  | connect | clear =>
    obtain ⟨-, rfl⟩ := h
    simp [WritesItsRegisters]
  | withSize | withRotation | getDimensions | release | enterGraphics | unwrap =>
    obtain rfl := h
    simp [WritesItsRegisters]

/-- Settles O55: a body writes its own registers, and recording an outcome writes none of them. -/
theorem onlyTheNamedInstructionsWriteARegister : Obligations.OnlyTheNamedInstructionsWriteARegister := by
  intro i s t h
  obtain ⟨r, rfl⟩ | ⟨u, hu, ⟨r, rfl⟩ | ⟨r, rfl⟩⟩ := exec_cases h
  · show WritesItsRegisters i s _
    simp [WritesItsRegisters]
  · exact hu.writesItsRegisters
  · exact hu.writesItsRegisters

end Sys2Proof.Machine
end

section
/-! PROOF. Steps, refusals and the stops of the model (spec/10_state.md R34, spec/60_exceptions.md R205), and CONNECT and the
configuration operations (spec/43_configuration.md). -/

namespace Sys2Proof.Machine

/-! ## Steps -/

/-- Settles O5: a step is what its entry does, and a table word that decodes is placed as that entry. -/
theorem stepRunsTheDecodedInstruction : Obligations.StepRunsTheDecodedInstruction := by
  intro s i hf hr
  refine ⟨fun he => step_entry hf hr he, fun nbits w hw => ⟨?_, ?_, step_withFetchWord s nbits w i hf hr hw⟩⟩
  · rw [withFetchWord_operation s nbits w i hw]
    rfl
  · rw [withFetchWord_operation s nbits w i hw]
    exact program_placeEntry s _

/-- A program that has ended answers its stop (R242; log 15). -/
theorem step_runEnded {s : State} (hf : s.fault = none) (hr : s.refused = none) (h : s.program[s.pos]? = none) :
    step s = .refused .runEnded := by
  simp only [step, haltOf_running hf hr, fetch, h]

/-- Bytes that are no instruction and no unlisted code stand for no entry (log 21). -/
theorem entryOfBytes_eq_none {c : CodeBytes} {e : DecodeError} (h : decode c = .error e) (he : ∀ code, e ≠ .unknownOp code) :
    entryOfBytes c = none := by
  cases e with
  | unknownOp code => exact absurd rfl (he code)
  | noBytes | malformedOperands | notACommand | truncatedCommand | trailingBytes => simp only [entryOfBytes, h]

theorem endProgram_getElem?_pos (s : State) : s.endProgram.program[s.pos]? = none := by
  simp

/-- Settles O10: the two ends of a program, and the mode check of a command. -/
theorem modelStopsByName : Obligations.ModelStopsByName := by
  refine ⟨fun s => step_runEnded, fun s nbits w e hf hr hd he => ?_, fun i s hc hm => ?_⟩
  · have hend : s.withFetchWord nbits w = s.endProgram := by
      simp only [State.withFetchWord, entryOfBytes_eq_none hd he]
    rw [hend]
    exact step_runEnded hf hr (endProgram_getElem?_pos s)
  · rw [exec_of_command (operationOf_eq_none_iff.2 hc), runCommand_noSession hm]

/-! ## Refusals -/

/-- Settles O9: each operation is refused with its own code where `admits` does not list the mode. -/
theorem wrongModeIsRefusedBeforeAnythingElse : Obligations.WrongModeIsRefusedBeforeAnythingElse := by
  rintro s m rfl
  refine ⟨fun h cfg => ?_, fun h => ?_, fun h => ?_, fun h => ?_⟩
  · exact exec_denied (op := .connect) rfl (beq_false_of_ne h)
  · have hg : (s.mode == .graphics) = false := beq_false_of_ne h
    exact ⟨fun _ => exec_denied (op := .reset) rfl hg, exec_denied (op := .init) rfl hg, exec_denied (op := .clear) rfl hg,
      fun _ _ _ => exec_denied (op := .setPixel) rfl hg, fun _ _ _ => exec_denied (op := .pixelEvent) rfl hg,
      exec_denied (op := .flush) rfl hg, exec_denied (op := .release) rfl hg⟩
  · have hr : (s.mode == .raw) = false := beq_false_of_ne h
    exact ⟨exec_denied (op := .initRaw) rfl hr, fun _ _ _ _ => exec_denied (op := .setDrawArea) rfl hr,
      fun _ => exec_denied (op := .draw) rfl hr, exec_denied (op := .enterGraphics) rfl hr⟩
  · have hs : (s.mode == .graphics || s.mode == .raw) = false := by rw [h]; rfl
    exact ⟨fun _ _ => exec_denied (op := .withSize) rfl hs, fun _ _ => exec_denied (op := .withRotation) rfl hs,
      fun _ => exec_denied (op := .setRotation) rfl hs, exec_denied (op := .getDimensions) rfl hs,
      fun _ => exec_denied (op := .displayOn) rfl hs, fun _ => exec_denied (op := .setContrast) rfl hs,
      exec_denied (op := .unwrap) rfl hs⟩

/-! ## Reset and CONNECT -/

/-- A whole framebuffer has a byte exactly at the indices 0 to 1023 (R27). -/
theorem Memory.covers.read_range {m : Memory} (h : m.covers 1024) :
    (∀ i, i < 1024 → (m.read i).isSome = true) ∧ ∀ i, 1024 ≤ i → m.read i = none := by
  refine ⟨fun i => (Memory.read_isSome_of_covers m 1024 i h).2, fun i hi => ?_⟩
  rw [← Option.not_isSome_iff_eq_none, Memory.read_isSome_of_covers m 1024 i h]
  exact Nat.not_lt.2 hi

theorem freshFramebuffer_covers_1024 (size : SizeCode) (n : Nat) : (freshFramebuffer size n).covers 1024 := by
  rw [← SizeCode.fbBytes_eq size]
  exact freshFramebuffer_covers size n

/-- Settles O12: the reset state's fields as they are written, and its framebuffer is whole. -/
theorem resetHasTheValuesAtConnect : Obligations.ResetHasTheValuesAtConnect :=
  ⟨rfl, rfl, rfl, rfl, rfl, rfl, rfl, rfl, (freshFramebuffer_covers_1024 _ _).read_range⟩

/-- Settles O13: at reset the framebuffer is whole, the window not valid and the log empty. -/
theorem resetMeetsTheInvariant : Obligations.ResetMeetsTheInvariant where
  fbPresent := fun _ => freshFramebuffer_covers _ _
  fbAbsent := fun h => absurd rfl h
  window := nofun
  events := nofun

theorem exec_connect {s : State} (h : s.mode = .none) (cfg : PanelConfig) :
    exec (.connect cfg) s = .next ((s.openSession cfg).returned (.ok .unit)) :=
  exec_operation (op := .connect) rfl (by rw [h]; rfl)

/-- Settles O14: CONNECT is its registers, and a mode other than NONE refuses it. -/
theorem connectOpensASession : Obligations.ConnectOpensASession := by
  intro cfg s
  refine ⟨fun h => ?_, fun h => exec_denied (op := .connect) rfl (beq_false_of_ne h)⟩
  obtain ⟨hin, hout⟩ := (freshFramebuffer_covers_1024 cfg.size (s.fresh + 6)).read_range
  exact ⟨_, exec_connect h cfg, rfl, rfl, rfl, rfl, rfl, hin, hout, rfl, rfl, rfl, rfl, rfl, rfl, rfl, rfl⟩

/-- Settles O15: CONNECT's registers hold nothing of the state but the fields the two states share. -/
theorem connectForgetsTheEarlierSession : Obligations.ConnectForgetsTheEarlierSession := by
  intro cfg s t u hs ht hlog hpos hprogram hfault hrefused htransport hpin h
  rw [exec_connect hs] at h
  obtain rfl := Host.Outcome.next.inj h
  refine ⟨_, exec_connect ht cfg, ?_⟩
  simp only [State.returned, State.openSession, hlog, hpos, hprogram, hfault, hrefused, htransport, hpin]

/-- Settles O16: the start of a run has no session, and the reset state is written with CONNECT's registers. -/
theorem connectFromTheStartIsReset : Obligations.ConnectFromTheStartIsReset :=
  exec_connect rfl PanelConfig.default

/-- Settles O17: in a session each returns its value and its body does nothing; NONE admits neither. -/
theorem configurationOperationsArePure : Obligations.ConfigurationOperationsArePure := by
  intro cfg size rot s
  refine ⟨fun h => ⟨?_, ?_⟩, fun h => ?_⟩
  · exact exec_operation (op := .withSize) rfl (admits_session rfl rfl h)
  · exact exec_operation (op := .withRotation) rfl (admits_session rfl rfl h)
  · rw [← h]
    have hs : (s.mode == .graphics || s.mode == .raw) = false := by rw [h]; rfl
    exact ⟨exec_denied (op := .withSize) rfl hs, exec_denied (op := .withRotation) rfl hs⟩

/-- Settles O58: the code of each outcome as it is defined. -/
theorem outcomeCodesAreTheSpecs : Obligations.OutcomeCodesAreTheSpecs :=
  ⟨fun _ => rfl, fun _ => rfl, fun _ => rfl, fun _ _ _ _ => rfl, rfl, fun _ _ => rfl, fun _ => rfl⟩

end Sys2Proof.Machine
end

section
/-! PROOF. The controller commands as instructions, and the frames of the operations: what each may change, whatever the agents
answer (spec/40_command_encoder.md R100 to R110, spec/41_display_properties.md R122 to R132, spec/42_graphics_surface.md R150 to
R157). -/

namespace Sys2Proof.Machine

/-! ## A command is one write of its bytes -/

theorem exec_command_session {i : Instr} {s : State} (hw : i.wf = true) (hc : i.isCommand = true) (hm : s.mode ≠ .none) :
    exec i s = conclude .unit (cmdWrite (encode i).bytes s) := by
  rw [exec_command_bytes hw hc, runCommand_session hm]

theorem exec_command_ok {i : Instr} {s : State} (hw : i.wf = true) (hc : i.isCommand = true) (hm : s.mode ≠ .none)
    (h : s.transport.answer 0 = .reply .ok) :
    exec i s = .next ((s.sent [.cmd (encode i).bytes .ok]).returned (.ok .unit)) := by
  rw [exec_command_session hw hc hm, cmdWrite_ok _ h, conclude_done]

theorem exec_command_err {i : Instr} {s : State} {e : TransportErr} (hw : i.wf = true) (hc : i.isCommand = true)
    (hm : s.mode ≠ .none) (h : s.transport.answer 0 = .reply (.err e)) :
    exec i s = .next ((s.sent [.cmd (encode i).bytes (.err e)]).returned (.err (.transport e))) := by
  rw [exec_command_session hw hc hm, cmdWrite_err _ h, conclude_failed]

/-- Settles O18: a command in a session is one command write, concluded. -/
theorem commandSendsExactlyItsEncoding : Obligations.CommandSendsExactlyItsEncoding := by
  intro i s hw hc hm
  exact ⟨exec_command_ok hw hc hm, fun e => exec_command_err hw hc hm⟩

/-- The byte of a command with a field, by arithmetic on the field (R71, R109, R110). -/
theorem add_setWidth_eq_ofNat (opcode : Nat) (n : BitVec 4) :
    BitVec.ofNat 8 opcode + n.setWidth 8 = BitVec.ofNat 8 (opcode + n.toNat) := by
  rw [BitVec.ofNat_add, BitVec.ofNat_toNat]

/-- Settles O19: each command sends its encoding, and a field is added to its opcode. -/
theorem commandBytesAreTheSpecs : Obligations.CommandBytesAreTheSpecs := by
  intro s v n hm h
  rw [← add_setWidth_eq_ofNat, ← add_setWidth_eq_ofNat]
  exact ⟨exec_command_ok (i := .clockDiv v) rfl rfl hm h, exec_command_ok (i := .contrast v) rfl rfl hm h,
    exec_command_ok (i := .precharge v) rfl rfl hm h, exec_command_ok (i := .scrollOn) rfl rfl hm h,
    exec_command_ok (i := .scrollOff) rfl rfl hm h, exec_command_ok (i := .cmdDisplayOn) rfl rfl hm h,
    exec_command_ok (i := .cmdDisplayOff) rfl rfl hm h, exec_command_ok (i := .segRemap1) rfl rfl hm h,
    exec_command_ok (i := .segRemap0) rfl rfl hm h, exec_command_ok (i := .comReverse) rfl rfl hm h,
    exec_command_ok (i := .comNormal) rfl rfl hm h, exec_command_ok (i := .colLow n) rfl rfl hm h,
    exec_command_ok (i := .colHigh n) rfl rfl hm h⟩

/-- Settles O20: up to page 7 PAGE_START is well-formed and sends its byte; above, its encoder function faults first. -/
theorem pageStartSendsOrFaults : Obligations.PageStartSendsOrFaults := by
  intro s p hm
  rw [BitVec.ofNat_add]
  refine ⟨fun hp h => ?_, fun hp e h => ?_, fun hp => ?_⟩
  · exact exec_command_ok (i := .pageStart p) (decide_eq_true hp) rfl hm h
  · exact exec_command_err (i := .pageStart p) (decide_eq_true hp) rfl hm h
  · rw [exec_of_command rfl, runCommand_session hm, bodyOf, sendPageStart_raised p s hp]
    rfl

/-! ## Bodies that raise no fault -/

/-- Every next state of a body that raises no fault is one it leaves, with its result handed over. -/
theorem conclude_noFault {P : State → Prop} {v : OpValue} {x : Flow} {t : State} (hx : x.Leaves P) (hn : x.NoFault)
    (h : conclude v x = .next t) : ∃ u r, P u ∧ t = u.returned r := by
  obtain ⟨u, rfl, rfl⟩ | ⟨e, u, rfl, rfl⟩ | ⟨r, u, rfl, -⟩ := conclude_next h
  · exact ⟨u, _, hx, rfl⟩
  · exact ⟨u, _, hx, rfl⟩
  · exact absurd rfl (hn r u)

theorem Flow.NoFault.movePhase {x : Flow} (h : x.NoFault) (onOk onErr : Phase → Phase) : (x.movePhase onOk onErr).NoFault := by
  cases x with
  | done s => exact fun _ _ => nofun
  | failed e s => exact fun _ _ => nofun
  | raised r s => exact absurd rfl (h r s)
  | stuck f => exact fun _ _ => nofun

/-! ## The frame of the commands -/

/-- Settles O21: a command's body only sends; it raises no fault when its operand is well-formed. -/
theorem commandsWriteNoRegister : Obligations.CommandsWriteNoRegister := by
  intro i s t hc h
  have hm : s.mode ≠ .none := fun hm => by
    rw [exec_of_command (operationOf_eq_none_iff.2 hc), runCommand_noSession hm] at h
    cases h
  obtain ⟨send, hs, hsends⟩ := exec_command hc s
  rw [hs, runCommand_session hm] at h
  obtain ⟨u, ⟨es, rfl, -⟩, hout⟩ := conclude_leaves (hsends s) h
  refine ⟨?_, ?_, fun hw => ?_⟩
  · obtain ⟨r, rfl⟩ | ⟨r, rfl⟩ := hout <;> rfl
  · obtain ⟨r, rfl⟩ | ⟨r, rfl⟩ := hout <;> exact fun _ => rfl
  · rw [← runCommand_session hm, ← hs, exec_command_session hw hc hm] at h
    obtain ⟨u, r, ⟨a, rfl⟩, rfl⟩ := conclude_noFault (transportWrite_leaves _ s) (transportWrite_noFault _ s) h
    rfl

/-! ## The frame of the operations that only talk to the transport -/

/-- SET_ROTATION, GET_DIMENSIONS, DISPLAY_ON, SET_CONTRAST, INITIALIZE and INIT. -/
def IsPassThrough (i : Instr) : Prop :=
  (∃ rot, i = .setRotation rot) ∨ i = .getDimensions ∨ (∃ on, i = .displayOn on) ∨ (∃ v, i = .setContrast v) ∨
    i = .initRaw ∨ i = .init

/-- u is s after events were sent, with ROT moved by SET_ROTATION alone and PHASE by the initializations alone. -/
def PassesThrough (i : Instr) (s u : State) : Prop :=
  ∃ rot p es, u = ((s.setRot rot).setPhase p).sent es ∧ ((∀ rot, i ≠ .setRotation rot) → rot = s.rot) ∧
    (i ≠ .initRaw → i ≠ .init → p = s.phase)

theorem Sends.passesThrough (i : Instr) {s u : State} (h : Sends s u) : PassesThrough i s u := by
  obtain ⟨es, rfl, -⟩ := h
  exact ⟨s.rot, s.phase, es, rfl, fun _ => rfl, fun _ _ => rfl⟩

theorem initBody_passesThrough {i : Instr} (hi : i = .initRaw ∨ i = .init) (s : State) :
    (initBody s).Leaves (PassesThrough i s) := by
  refine (movePhase_leaves (initSequence_sends s)).mono ?_
  rintro u ⟨v, p, ⟨es, rfl, -⟩, rfl⟩
  exact ⟨s.rot, p, es, rfl, fun _ => rfl, fun h1 h2 => absurd hi (not_or.2 ⟨h1, h2⟩)⟩

theorem initBody_noFault (s : State) : (initBody s).NoFault := (initSequence_noFault s).movePhase _ _

theorem passThrough_leaves {i : Instr} (h : IsPassThrough i) (s : State) :
    (bodyOf i s).Leaves (PassesThrough i s) ∧ (bodyOf i s).NoFault := by
  obtain ⟨rot, rfl⟩ | rfl | ⟨on, rfl⟩ | ⟨v, rfl⟩ | rfl | rfl := h
  · refine ⟨(sendRemap_sends rot (s.setRot rot)).mono ?_, ?_⟩
    · rintro u ⟨es, rfl, -⟩
      exact ⟨rot, s.phase, es, rfl, fun h => absurd rfl (h rot), fun _ _ => rfl⟩
    · rw [bodyOf, rotationBody, sendRemap_eq]
      exact sendCommands_noFault _ _
  · exact ⟨(Sends.refl s).passesThrough _, fun _ _ => nofun⟩
  · exact ⟨(sendDisplay_sends on s).mono fun _ hu => hu.passesThrough _, transportWrite_noFault _ s⟩
  · exact ⟨(sendContrast_sends v s).mono fun _ hu => hu.passesThrough _, transportWrite_noFault _ s⟩
  · exact ⟨initBody_passesThrough (.inl rfl) s, initBody_noFault s⟩
  · exact ⟨initBody_passesThrough (.inr rfl) s, initBody_noFault s⟩

/-- Settles O36: such a body passes events through and raises no fault. -/
theorem passThroughsLeaveTheRest : Obligations.PassThroughsLeaveTheRest := by
  intro i s t hi h
  obtain ⟨op, -, rfl⟩ | ⟨-, hrun⟩ := exec_next h
  · exact ⟨rfl, fun _ => rfl, fun _ => rfl, fun _ _ => rfl⟩
  · obtain ⟨hleaves, hn⟩ := passThrough_leaves hi s
    obtain ⟨u, r, ⟨rot, p, es, rfl, hrot, hphase⟩, rfl⟩ := conclude_noFault hleaves hn hrun
    exact ⟨rfl, fun _ => rfl, hrot, hphase⟩

/-! ## The frames of DRAW and FLUSH -/

/-- Settles O31: DRAW's body moves the cursor and sends. -/
theorem drawWritesOnlyTheCursor : Obligations.DrawWritesOnlyTheCursor := by
  intro s t bytes h
  obtain ⟨r, rfl⟩ | ⟨u, ⟨c, row, es, rfl, -⟩, ⟨r, rfl⟩ | ⟨r, rfl⟩⟩ := exec_cases h <;> exact ⟨rfl, fun _ => rfl⟩

/-- Settles O48: FLUSH's body writes the window and the cursor and sends, or writes nothing. -/
theorem flushOnlyReadsTheFramebuffer : Obligations.FlushOnlyReadsTheFramebuffer := by
  intro s t h
  obtain ⟨r, rfl⟩ | ⟨u, hu, hout⟩ := exec_cases h
  · exact ⟨rfl, fun _ => rfl⟩
  · obtain rfl | ⟨sc, sr, ec, er, c, row, es, rfl, -⟩ := hu <;> obtain ⟨r, rfl⟩ | ⟨r, rfl⟩ := hout <;>
      exact ⟨rfl, fun _ => rfl⟩

/-! ## The frame of the framebuffer writers -/

/-- u is s with the framebuffer written at most at the index Map gives for a pixel. -/
def WritesPixel (x y : Nat) (s u : State) : Prop :=
  ∃ m, u = s.setFb m ∧ ∀ a, (∀ idx bit, pixelMap s.size s.rot x y = some (idx, bit) → a ≠ idx) → m.read a = s.fb.read a

theorem setPixelBody_writesPixel (x y : Nat) (on : Bool) (s : State) :
    (setPixelBody x y on s).Leaves (WritesPixel x y s) ∧ (setPixelBody x y on s).NoFault := by
  obtain ⟨hb, -⟩ | ⟨idx, bit, b, hin, -, hb⟩ | ⟨idx, bit, -, -, hb⟩ := setPixelBody_cases x y on s <;> rw [hb]
  · exact ⟨⟨s.fb, rfl, fun _ _ => rfl⟩, fun _ _ => nofun⟩
  · exact ⟨⟨_, rfl, fun a ha => Memory.read_write_other _ _ _ _ (ha idx bit hin)⟩, fun _ _ => nofun⟩
  · exact ⟨trivial, fun _ _ => nofun⟩

theorem pixelEventBody_writesPixel (x y : BitVec 32) (color : Bool) (s : State) :
    (pixelEventBody x y color s).Leaves (WritesPixel x.toNat y.toNat s) ∧ (pixelEventBody x y color s).NoFault := by
  unfold pixelEventBody
  split
  · exact ⟨⟨s.fb, rfl, fun _ _ => rfl⟩, fun _ _ => nofun⟩
  · exact setPixelBody_writesPixel _ _ _ s

/-- SET_PIXEL and PIXEL_EVENT are refused, or write at most the byte Map gives for their operands and return. -/
theorem exec_writesPixel {i : Instr} {s t : State} {x y : BitVec 32}
    (hi : (∃ v, i = .setPixel x y v) ∨ ∃ c, i = .pixelEvent x y c) (h : exec i s = .next t) :
    (∃ r, t = s.setRefused r) ∨ ∃ u r, WritesPixel x.toNat y.toNat s u ∧ t = u.returned r := by
  obtain ⟨op, -, rfl⟩ | ⟨-, hrun⟩ := exec_next h
  · exact .inl ⟨_, rfl⟩
  · have hbody : (bodyOf i s).Leaves (WritesPixel x.toNat y.toNat s) ∧ (bodyOf i s).NoFault := by
      obtain ⟨v, rfl⟩ | ⟨c, rfl⟩ := hi
      · exact setPixelBody_writesPixel _ _ _ s
      · exact pixelEventBody_writesPixel x y c s
    exact .inr (conclude_noFault hbody.1 hbody.2 hrun)

/-- Settles O43: the bodies write the framebuffer only, a pixel's at its own byte, and raise no fault. -/
theorem framebufferWritersLeaveTheRest : Obligations.FramebufferWritersLeaveTheRest := by
  refine ⟨fun i s t hi h => ?_, fun s t x y i a hi h ha => ?_⟩
  · obtain rfl | hpixel : i = .clear ∨ ∃ x y, (∃ v, i = .setPixel x y v) ∨ ∃ c, i = .pixelEvent x y c := by
      obtain rfl | ⟨x, y, v, rfl⟩ | ⟨x, y, c, rfl⟩ := hi
      · exact .inl rfl
      · exact .inr ⟨x, y, .inl ⟨v, rfl⟩⟩
      · exact .inr ⟨x, y, .inr ⟨c, rfl⟩⟩
    · obtain ⟨op, -, rfl⟩ | ⟨-, hrun⟩ := exec_next h
      · rfl
      · obtain rfl := Host.Outcome.next.inj hrun
        rfl
    · obtain ⟨x, y, hxy⟩ := hpixel
      obtain ⟨r, rfl⟩ | ⟨u, r, ⟨m, rfl, -⟩, rfl⟩ := exec_writesPixel hxy h <;> rfl
  · obtain ⟨r, rfl⟩ | ⟨u, r, ⟨m, rfl, hm⟩, rfl⟩ := exec_writesPixel hi h
    · rfl
    · exact hm a ha

end Sys2Proof.Machine
end

section
/-! PROOF. Scripts: what a body sends, with the cursor at each write, when its register moves do not depend on the answers. A script
is run against the transport's answers; the first that is not `Ok` cuts it (spec/00_scope.md R8, spec/60_exceptions.md R208). -/

namespace Sys2Proof.Machine

/-! ## Scripts and their run -/

/-- A transport write before it is answered: its channel and its bytes. -/
inductive Write where
  | cmd (bytes : List Byte)
  | data (bytes : List Byte)

/-- The event a write is logged as. -/
def Write.event : Write → Reply TransportErr → Event
  | .cmd bytes => .cmd bytes
  | .data bytes => .data bytes

/-- The rest of a body that writes to the transport: it ends or faults with the cursor somewhere, it stops the machine, or it
moves the cursor, makes one write and goes on. -/
inductive Script where
  | ended (col row : Byte)
  | faulted (r : FaultReason) (col row : Byte)
  | stopped (f : Fault)
  | write (col row : Byte) (w : Write) (next : Script)

/-- What a script does from a state, against the answers of its transport. -/
def Script.run : Script → State → Flow
  | .ended col row, s => .done (s.setCursor col row)
  | .faulted r col row, s => .raised r (s.setCursor col row)
  | .stopped f, _ => .stuck f
  | .write col row w next, s => (transportWrite w.event (s.setCursor col row)).andThen next.run

/-- The events of a script when every write is answered `Ok`. -/
def Script.events : Script → List Event
  | .ended _ _ | .faulted _ _ _ | .stopped _ => []
  | .write _ _ w next => w.event .ok :: next.events

/-- Where the cursor is at each write. -/
def Script.cursors : Script → List (Byte × Byte)
  | .ended _ _ | .faulted _ _ _ | .stopped _ => []
  | .write col row _ next => (col, row) :: next.cursors

/-- How a script ends when every write is answered `Ok`, from the state in which the writes were logged. -/
def Script.finish : Script → State → Flow
  | .ended col row, s => .done (s.setCursor col row)
  | .faulted r col row, s => .raised r (s.setCursor col row)
  | .stopped f, _ => .stuck f
  | .write _ _ _ next, s => next.finish s

@[simp] theorem Script.finish_write (col row : Byte) (w : Write) (next : Script) :
    (Script.write col row w next).finish = next.finish := rfl

theorem Script.length_cursors (script : Script) : script.cursors.length = script.events.length := by
  induction script with
  | ended | faulted | stopped => rfl
  | write col row w next ih => exact congrArg (· + 1) ih

theorem Write.failedWith_event (w : Write) (e : TransportErr) : (w.event .ok).failedWith e = w.event (.err e) := by
  cases w <;> rfl

/-! ## What a run does -/

/-- A script sets the cursor before it does anything, so where it was does not matter. -/
theorem Script.run_setCursor (script : Script) (s : State) (col row : Byte) :
    script.run (s.setCursor col row) = script.run s := by
  cases script <;> rfl

/-- One write answered `Ok`, and the script goes on. -/
theorem Script.run_write_ok (col row : Byte) (w : Write) (next : Script) {s : State} (h : s.transport.answer 0 = .reply .ok) :
    (Script.write col row w next).run s = next.run (s.sent [w.event .ok]) := by
  rw [Script.run, transportWrite_ok _ (s.setCursor col row) h, Flow.andThen_done, ← State.sent_setCursor, Script.run_setCursor]

/-- With an `Ok` to each write, a script logs its events and ends. -/
theorem Script.run_ok (script : Script) {s : State} (h : s.transport.grants script.events.length) :
    script.run s = script.finish (s.sent script.events) := by
  induction script generalizing s with
  | ended | faulted | stopped => simp [Script.run, Script.finish, Script.events]
  | write col row w next ih =>
    rw [Script.run_write_ok _ _ _ _ (h 0 (Nat.succ_pos _)), ih (grants_sent_one h _), State.sent_sent]
    rfl

/-- The first error cuts a script: the writes before it and the failing one are logged, with the cursor where that write
found it. -/
theorem Script.run_err {script : Script} {s : State} {k : Nat} {e : TransportErr} {col row : Byte}
    (hk : script.cursors[k]? = some (col, row)) (h : s.transport.grants k) (he : s.transport.answer k = .reply (.err e)) :
    script.run s = .failed (.transport e) ((s.setCursor col row).sent (cutAt script.events k e)) := by
  induction script generalizing s k with
  | ended | faulted | stopped => simp [Script.cursors] at hk
  | write col' row' w next ih =>
    cases k with
    | zero =>
      obtain ⟨rfl, rfl⟩ : col' = col ∧ row' = row := by simpa [Script.cursors] using hk
      rw [Script.run, transportWrite_err _ (s.setCursor col' row') e he, Script.events, cutAt_zero, Write.failedWith_event]
      rfl
    | succ k =>
      have hk' : (s.sent [w.event .ok]).transport.answer k = .reply (.err e) := by simpa [Nat.add_comm] using he
      rw [Script.run_write_ok _ _ _ _ (h 0 (Nat.succ_pos _)), ih (by simpa [Script.cursors] using hk) (grants_sent_one h _) hk',
        State.sent_setCursor, State.sent_sent, Script.events, cutAt_succ]
      rfl

/-- A write that is never answered stops a script. -/
theorem Script.run_never {script : Script} {s : State} {k : Nat} (hk : k < script.events.length) (h : s.transport.grants k)
    (hn : s.transport.answer k = .never) : script.run s = .stuck .agentSilent := by
  induction script generalizing s k with
  | ended | faulted | stopped => simp [Script.events] at hk
  | write col row w next ih =>
    cases k with
    | zero => rw [Script.run, transportWrite_never _ (s.setCursor col row) hn, Flow.andThen_stuck]
    | succ k =>
      have hn' : (s.sent [w.event .ok]).transport.answer k = .never := by simpa [Nat.add_comm] using hn
      rw [Script.run_write_ok _ _ _ _ (h 0 (Nat.succ_pos _)),
        ih (Nat.lt_of_succ_lt_succ hk) (grants_sent_one h _) hn']

/-! ## Writes with the cursor at one place -/

/-- A list of writes, the cursor not moving between them. -/
def Script.writes (col row : Byte) (ws : List Write) (next : Script) : Script :=
  ws.foldr (fun w k => .write col row w k) next

@[simp] theorem Script.events_writes (col row : Byte) (ws : List Write) (next : Script) :
    (Script.writes col row ws next).events = ws.map (·.event .ok) ++ next.events := by
  induction ws with
  | nil => rfl
  | cons w ws ih => exact congrArg (w.event .ok :: ·) ih

@[simp] theorem Script.cursors_writes (col row : Byte) (ws : List Write) (next : Script) :
    (Script.writes col row ws next).cursors = List.replicate ws.length (col, row) ++ next.cursors := by
  induction ws with
  | nil => rfl
  | cons w ws ih => exact congrArg ((col, row) :: ·) ih

@[simp] theorem Script.finish_writes (col row : Byte) (ws : List Write) (next : Script) :
    (Script.writes col row ws next).finish = next.finish := by
  induction ws with
  | nil => rfl
  | cons w ws ih => exact ih

/-- After a write that ended, the rest of a body may be replaced by one that does the same on the states the write can leave. -/
theorem transportWrite_andThen_congr {ev : Reply TransportErr → Event} {s : State} {f g : State → Flow}
    (h : ∀ r, f (s.sent [ev r]) = g (s.sent [ev r])) : (transportWrite ev s).andThen f = (transportWrite ev s).andThen g := by
  have hl := transportWrite_leaves ev s
  cases hx : transportWrite ev s with
  | done u =>
    rw [hx] at hl
    obtain ⟨r, rfl⟩ := hl
    exact h r
  | failed _ _ => rfl
  | raised _ _ => rfl
  | stuck _ => rfl

/-- A list of commands and the rest of a body are a script, when the rest is one wherever events were only sent. -/
theorem sendCommands_andThen {cs : List (List Byte)} {next : Script} {s : State} {f : State → Flow}
    (h : ∀ es, f (s.sent es) = next.run (s.sent es)) :
    (sendCommands cs s).andThen f = (Script.writes s.curCol s.curRow (cs.map .cmd) next).run s := by
  induction cs generalizing s with
  | nil =>
    have h0 := h []
    rw [State.sent_nil] at h0
    exact h0
  | cons c cs ih =>
    rw [sendCommands, Flow.andThen_assoc]
    refine transportWrite_andThen_congr fun r => ?_
    exact ih fun es => by simpa using h (.cmd c r :: es)

/-- A list of commands is a script that ends with the cursor where it was. -/
theorem sendCommands_script (cs : List (List Byte)) (s : State) :
    sendCommands cs s = (Script.writes s.curCol s.curRow (cs.map .cmd) (.ended s.curCol s.curRow)).run s := by
  rw [← Flow.andThen_done_right (sendCommands cs s)]
  exact sendCommands_andThen fun es => rfl

/-! ## The address sequence -/

/-- The three writes of an address sequence (R121). -/
def addressWrites (page : Nat) (col : Byte) : List Write := (addressCommands page col).map .cmd

theorem addressWrites_events (page : Nat) (col : Byte) :
    (addressWrites page col).map (·.event .ok) = addressEvents page col := by
  rw [← commandEvents_address, commandEvents, addressWrites, List.map_map]
  rfl

@[simp] theorem length_addressWrites (page : Nat) (col : Byte) : (addressWrites page col).length = 3 := rfl

/-- The address sequence of a cursor position, then the rest: a page above 7 faults before anything is sent (R108, R121). -/
def addressScript (col row : Byte) (next : Script) : Script :=
  if pageOf row ≤ 7 then .writes col row (addressWrites (pageOf row) col) next
  else .faulted (.pageOutOfRange (pageOf row)) col row

theorem addressScript_sent {col row : Byte} (h : pageOf row ≤ 7) (next : Script) :
    addressScript col row next = .writes col row (addressWrites (pageOf row) col) next := if_pos h

theorem addressScript_faulted {col row : Byte} (h : pageOf row > 7) (next : Script) :
    addressScript col row next = .faulted (.pageOutOfRange (pageOf row)) col row := if_neg (Nat.not_le.2 h)

theorem sendDrawAddress_andThen {next : Script} {s : State} {f : State → Flow}
    (h : ∀ es, f (s.sent es) = next.run (s.sent es)) :
    (sendDrawAddress s).andThen f = (addressScript s.curCol s.curRow next).run s := by
  unfold addressScript
  split
  next hp =>
    rw [sendDrawAddress_eq hp]
    exact sendCommands_andThen h
  next hp =>
    rw [sendDrawAddress_raised s (Nat.lt_of_not_le hp)]
    rfl

theorem sendDrawAddress_script (s : State) :
    sendDrawAddress s = (addressScript s.curCol s.curRow (.ended s.curCol s.curRow)).run s := by
  rw [← Flow.andThen_done_right (sendDrawAddress s)]
  exact sendDrawAddress_andThen fun es => rfl

end Sys2Proof.Machine
end

section
/-! PROOF. DRAW as a script, and the page rows of a window counted round it (spec/41_display_properties.md R124, R125, R127). -/

namespace Sys2Proof.Machine

/-! ## DRAW's loop as a script -/

/-- A crossing's cursor: the window's start column, in the next page row (R125). -/
def State.crossed (s : State) : State := s.setCursor s.winStartCol (crossedRow s)

/-- The script of DRAW's loop (R124). -/
def drawScript : List Byte → List Byte → State → Script
  | _, [], s => .ended s.curCol s.curRow
  | [], _ :: _, _ => .stopped .cursorOutsideWindow
  | _ :: passes, b :: more, s =>
    if roomLeft s = 0 then .stopped .cursorOutsideWindow
    else .write s.curCol s.curRow (.data ((b :: more).take (roomLeft s)))
      (if roomLeft s ≤ (b :: more).length then
        addressScript s.winStartCol (crossedRow s) (drawScript passes ((b :: more).drop (roomLeft s)) s.crossed)
      else .ended (BitVec.ofNat 8 (s.curCol.toNat + (b :: more).length)) s.curRow)

@[simp] theorem drawScript_nil (passes : List Byte) (s : State) :
    drawScript passes [] s = .ended s.curCol s.curRow := by
  cases passes <;> rfl

/-- A pass whose bytes end short of the window's end column is the last. -/
theorem drawScript_short (p : Byte) (passes : List Byte) {rest : List Byte} {s : State} (hne : rest ≠ [])
    (h : rest.length < roomLeft s) :
    drawScript (p :: passes) rest s = .write s.curCol s.curRow (.data rest)
      (.ended (BitVec.ofNat 8 (s.curCol.toNat + rest.length)) s.curRow) := by
  cases rest with
  | nil => exact absurd rfl hne
  | cons b more =>
    rw [drawScript, if_neg (by omega), if_neg (Nat.not_le.2 h), List.take_of_length_le (Nat.le_of_lt h)]

/-- A pass that fills its row crosses. -/
theorem drawScript_row (p : Byte) (passes : List Byte) {rest : List Byte} {s : State} (h0 : 0 < roomLeft s)
    (h : roomLeft s ≤ rest.length) :
    drawScript (p :: passes) rest s = .write s.curCol s.curRow (.data (rest.take (roomLeft s)))
      (addressScript s.winStartCol (crossedRow s) (drawScript passes (rest.drop (roomLeft s)) s.crossed)) := by
  cases rest with
  | nil => exact absurd h (Nat.not_le.2 h0)
  | cons b more => rw [drawScript, if_neg (by omega), if_pos h]

@[simp] theorem roomLeft_sent (s : State) (es : List Event) : roomLeft (s.sent es) = roomLeft s := rfl

/-- DRAW's loop is its script, whatever was sent before it: after the write of a chunk the cursor moves on or crosses, and the
rest is DRAW's loop again. -/
theorem drawLoop_script (passes rest : List Byte) (s : State) (es : List Event) :
    drawLoop passes rest (s.sent es) = (drawScript passes rest s).run (s.sent es) := by
  induction passes generalizing rest s es with
  | nil => cases rest <;> rfl
  | cons p passes ih =>
    cases rest with
    | nil => rfl
    | cons b more =>
      rw [drawLoop, drawScript, roomLeft_sent]
      by_cases hroom : roomLeft s = 0
      · rw [if_pos hroom, if_pos hroom, Script.run]
      rw [if_neg hroom, if_neg hroom]
      refine transportWrite_andThen_congr (s := s.sent es) fun r => ?_
      rw [State.sent_sent, advance_eq (s := s.sent _) (Nat.pos_of_ne_zero hroom) (by simp), roomLeft_sent, List.length_take]
      by_cases hle : roomLeft s ≤ (b :: more).length
      · rw [if_pos hle, if_pos (Nat.min_eq_left hle), ← Script.run_setCursor _ _ s.winStartCol (crossedRow s)]
        refine sendDrawAddress_andThen (s := s.crossed.sent _) fun fs => ?_
        rw [State.sent_sent]
        exact ih _ s.crossed _
      · rw [if_neg hle, if_neg (by omega), Nat.min_eq_right (Nat.le_of_not_le hle),
          List.drop_eq_nil_of_le (Nat.le_of_not_le hle), Flow.andThen_done, drawLoop_nil]
        rfl

theorem exec_draw {s : State} (hm : s.mode = .raw) (hv : s.winValid = true) (bytes : List Byte) :
    exec (.draw bytes) s = conclude .unit ((drawScript bytes bytes s).run s) := by
  have hbody : drawBody bytes s = drawLoop bytes bytes (s.sent []) := by rw [State.sent_nil]; exact if_pos hv
  rw [exec_operation (op := .draw) rfl (by rw [hm]; rfl), bodyOf, hbody, drawLoop_script, State.sent_nil]
  rfl

/-- Settles O23: without a window DRAW's body faults before its loop (R124). -/
theorem drawWithoutAWindowFaults : Obligations.DrawWithoutAWindowFaults := by
  intro s bytes hm hv
  have hbody : drawBody bytes s = .raised .windowUnset s := if_neg (by simp [hv])
  rw [exec_operation (op := .draw) rfl (by rw [hm]; rfl), bodyOf, hbody]
  rfl

/-! ## One chunk -/

/-- Settles O24: a DRAW whose bytes end short of the end column is one write and a cursor move. -/
theorem drawShortChunkStaysInTheRow : Obligations.DrawShortChunkStaysInTheRow := by
  intro s bytes hm hv hlt
  refine ⟨?_, fun hne h => ?_⟩
  · rintro rfl
    rw [exec_draw hm hv]
    rfl
  · obtain ⟨b, more, rfl⟩ := List.exists_cons_of_ne_nil hne
    have hroom : (b :: more).length < roomLeft s := by simp only [roomLeft]; omega
    rw [exec_draw hm hv, drawScript_short b more hne hroom, Script.run_write_ok _ _ _ _ h]
    rfl

/-- R125's next row, by its two cases. -/
theorem eq_crossedRow {s : State} {row : Byte} (hwrap : s.curRow.toNat + 8 ≥ s.winEndRow.toNat → row = s.winStartRow)
    (hmove : s.curRow.toNat + 8 < s.winEndRow.toNat → row.toNat = s.curRow.toNat + 8) : row = crossedRow s := by
  apply BitVec.eq_of_toNat_eq
  rw [crossedRow_toNat]
  split
  next h => rw [hwrap h]
  next h => exact hmove (Nat.lt_of_not_le h)

/-- The first pass of a DRAW whose bytes fill their row exactly: the write, the address sequence and no more. -/
theorem drawScript_exact {b : Byte} {more : List Byte} {s : State} (h : (b :: more).length = roomLeft s) :
    drawScript (b :: more) (b :: more) s = .write s.curCol s.curRow (.data (b :: more))
      (addressScript s.winStartCol (crossedRow s) (.ended s.winStartCol (crossedRow s))) := by
  rw [drawScript_row _ _ (by rw [← h]; exact Nat.succ_pos _) (Nat.le_of_eq h.symm), ← h, List.take_length, List.drop_length,
    drawScript_nil]
  rfl

/-- Settles O25: the row's one pass crosses, and the page of the row it crosses to decides whether it faults. -/
theorem drawFullRowCrosses : Obligations.DrawFullRowCrosses := by
  intro s bytes row hm hv hne hlen h hwrap hmove
  obtain ⟨b, more, rfl⟩ := List.exists_cons_of_ne_nil hne
  obtain rfl := eq_crossedRow hwrap hmove
  have hroom : (b :: more).length = roomLeft s := by simp only [roomLeft]; omega
  rw [exec_draw hm hv, drawScript_exact hroom]
  refine ⟨fun hp => ?_, fun hp => ?_⟩
  · rw [addressScript_sent hp, Script.run_ok _ (by simpa [Script.events] using h), Script.finish, Script.finish_writes,
      Script.events, Script.events_writes, addressWrites_events, Script.events, List.append_nil]
    rfl
  · rw [addressScript_faulted hp, Script.run_write_ok _ _ _ _ (h 0 (by omega))]
    rfl

end Sys2Proof.Machine
end

section
/-! PROOF. The page rows of a window counted round it, and DRAW's errors at any write (spec/41_display_properties.md R124 to R127,
spec/60_exceptions.md R208). -/

namespace Sys2Proof.Machine

/-! ## The cursor after crossings -/

/-- The page row of the window the cursor is in, counted from the window's start row. -/
def rowIndex (s : State) : Nat := (s.curRow.toNat - s.winStartRow.toNat) / 8

/-- The n-th page row of a window, counted round it (R127). -/
def pageRow (s : State) (n : Nat) : Nat := s.winStartRow.toNat + 8 * (n % windowPages s)

/-- s with the cursor where n crossings put it. -/
def State.crossedBy (s : State) (n : Nat) : State :=
  s.setCursor (if n = 0 then s.curCol else s.winStartCol) (BitVec.ofNat 8 (pageRow s (rowIndex s + n)))

theorem windowPages_pos {s : State} (h : s.WindowOk) : 0 < windowPages s := by
  have hrows := h.rows
  simp only [windowPages]
  omega

theorem rowIndex_lt {s : State} (h : s.WindowOk) : rowIndex s < windowPages s := by
  have hhigh := h.rowHigh
  have hlow := h.rowLow
  simp only [rowIndex, windowPages]
  omega

/-- Every page row of a window begins above the window's end row, so it fits the register (D8). -/
theorem pageRow_lt {s : State} (h : s.WindowOk) (n : Nat) : pageRow s n < s.winEndRow.toNat := by
  have hn := Nat.mod_lt n (windowPages_pos h)
  have hrows := h.rows
  simp only [pageRow, windowPages] at hn ⊢
  omega

theorem toNat_pageRow {s : State} (h : s.WindowOk) (n : Nat) : (BitVec.ofNat 8 (pageRow s n)).toNat = pageRow s n := by
  have hend := s.winEndRow.isLt
  rw [BitVec.toNat_ofNat]
  exact Nat.mod_eq_of_lt (Nat.lt_trans (pageRow_lt h n) hend)

theorem pageRow_rowIndex {s : State} (h : s.WindowOk) : pageRow s (rowIndex s) = s.curRow.toNat := by
  have hlow := h.rowLow
  have haligned := h.aligned
  rw [pageRow, Nat.mod_eq_of_lt (rowIndex_lt h)]
  simp only [rowIndex, pageHeight] at haligned ⊢
  omega

theorem crossedBy_zero {s : State} (h : s.WindowOk) : s.crossedBy 0 = s := by
  have hrow : BitVec.ofNat 8 (pageRow s (rowIndex s)) = s.curRow := by
    apply BitVec.eq_of_toNat_eq
    rw [toNat_pageRow h, pageRow_rowIndex h]
  rw [State.crossedBy, if_pos rfl, Nat.add_zero, hrow]
  rfl

/-- The page row after the n-th: eight rows on, or the start row where that reaches the end row (R125). -/
theorem pageRow_succ {s : State} (h : s.WindowOk) (n : Nat) :
    pageRow s (n + 1) = if pageRow s n + 8 ≥ s.winEndRow.toNat then s.winStartRow.toNat else pageRow s n + 8 := by
  have hn := Nat.mod_lt n (windowPages_pos h)
  have hrows := h.rows
  have hlast : s.winStartRow.toNat + 8 * (n % windowPages s) + 8 ≥ s.winEndRow.toNat ↔ n % windowPages s + 1 = windowPages s := by
    generalize n % windowPages s = i at hn ⊢
    simp only [windowPages] at hn ⊢
    omega
  rw [pageRow, pageRow, ← Nat.mod_add_mod]
  by_cases hl : n % windowPages s + 1 = windowPages s
  · rw [if_pos (hlast.2 hl), hl, Nat.mod_self, Nat.mul_zero, Nat.add_zero]
  · rw [if_neg (mt hlast.1 hl), Nat.mod_eq_of_lt (by omega), Nat.mul_succ, ← Nat.add_assoc]

/-- A crossing from the n-th page row leads to the next. -/
theorem crossed_crossedBy {s : State} (h : s.WindowOk) (n : Nat) : (s.crossedBy n).crossed = s.crossedBy (n + 1) := by
  have hrow : crossedRow (s.crossedBy n) = BitVec.ofNat 8 (pageRow s (rowIndex s + (n + 1))) := by
    apply BitVec.eq_of_toNat_eq
    rw [crossedRow_toNat, toNat_pageRow h, ← Nat.add_assoc, pageRow_succ h, ← toNat_pageRow h (rowIndex s + n)]
    rfl
  rw [State.crossed, hrow]
  rfl

/-! ## DRAW's script looks at the window and the cursor only -/

theorem drawScript_congr (passes rest : List Byte) {s t : State} (hsc : t.winStartCol = s.winStartCol)
    (hsr : t.winStartRow = s.winStartRow) (hec : t.winEndCol = s.winEndCol) (her : t.winEndRow = s.winEndRow)
    (hc : t.curCol = s.curCol) (hr : t.curRow = s.curRow) : drawScript passes rest t = drawScript passes rest s := by
  induction passes generalizing rest s t with
  | nil =>
    cases rest with
    | nil => simp only [drawScript, hc, hr]
    | cons b more => rfl
  | cons p passes ih =>
    cases rest with
    | nil => simp only [drawScript, hc, hr]
    | cons b more =>
      have hroom : roomLeft t = roomLeft s := by simp only [roomLeft, hec, hc]
      have hrow : crossedRow t = crossedRow s := by simp only [crossedRow, hsr, her, hr]
      have hnext := ih ((b :: more).drop (roomLeft s)) (s := s.crossed) (t := t.crossed) hsc hsr hec her hsc hrow
      simp only [drawScript, hroom, hrow, hsc, hc, hr, hnext]

/-! ## The cursor at each write -/

theorem isPageStart_address {page : Nat} (h : page ≤ 7) (col : Byte) :
    (addressEvents page col).map isPageStart = [true, false, false] := by
  have hlow : decodeCommand [(lowNibble col).setWidth 8] = .ok (.colLow (lowNibble col)) := by
    simpa using decode_colLow (lowNibble col)
  have hhigh := decode_colHigh (highNibble col)
  simp only [addressEvents, List.map_cons, List.map_nil, isPageStart, decode_pageStart page h, hlow, hhigh]

/-- The cursors of a list of writes from the n-th page row on, when each address sequence in it follows a crossing. -/
def crossingCursors (s : State) : Nat → List Event → List (Byte × Byte)
  | _, [] => []
  | n, e :: es =>
    let m := if isPageStart e then n + 1 else n
    ((s.crossedBy m).curCol, (s.crossedBy m).curRow) :: crossingCursors s m es

theorem crossingCursors_getElem? (s : State) (n : Nat) {es : List Event} {k : Nat} (hk : k < es.length) :
    (crossingCursors s n es)[k]? =
      some ((s.crossedBy (n + (es.take (k + 1)).countP isPageStart)).curCol,
        (s.crossedBy (n + (es.take (k + 1)).countP isPageStart)).curRow) := by
  induction es generalizing n k with
  | nil => simp at hk
  | cons e es ih =>
    have hcount (l : List Event) : (if isPageStart e then n + 1 else n) + l.countP isPageStart =
        n + (e :: l).countP isPageStart := by
      rw [List.countP_cons]
      split <;> omega
    cases k with
    | zero => simp only [crossingCursors, ← hcount, List.take_succ_cons]; rfl
    | succ k =>
      rw [crossingCursors, List.getElem?_cons_succ, ih _ (Nat.lt_of_succ_lt_succ hk), hcount, List.take_succ_cons]

theorem crossingCursors_address {page : Nat} (h : page ≤ 7) (s : State) (n : Nat) (col : Byte) (es : List Event) :
    crossingCursors s n (addressEvents page col ++ es) =
      List.replicate 3 ((s.crossedBy (n + 1)).curCol, (s.crossedBy (n + 1)).curRow) ++ crossingCursors s (n + 1) es := by
  have hmap := isPageStart_address h col
  simp only [addressEvents, List.map_cons, List.map_nil, List.cons.injEq, and_true] at hmap
  obtain ⟨h1, h2, h3⟩ := hmap
  simp only [addressEvents, List.cons_append, List.nil_append, crossingCursors, h1, h2, h3]
  rfl

theorem crossingCursors_data (s : State) (n : Nat) (bytes : List Byte) (r : Reply TransportErr) (es : List Event) :
    crossingCursors s n (.data bytes r :: es) =
      ((s.crossedBy n).curCol, (s.crossedBy n).curRow) :: crossingCursors s n es := rfl

/-- The cursor at each write of a DRAW is where the crossings begun by then have put it. -/
theorem cursors_drawScript {s : State} (h : s.WindowOk) (passes rest : List Byte) (n : Nat) :
    (drawScript passes rest (s.crossedBy n)).cursors =
      crossingCursors s n (drawScript passes rest (s.crossedBy n)).events := by
  induction passes generalizing rest n with
  | nil => cases rest <;> rfl
  | cons p passes ih =>
    cases rest with
    | nil => rfl
    | cons b more =>
      rw [drawScript]
      split
      · rfl
      rw [Script.cursors, Script.events, Write.event, crossingCursors_data]
      refine congrArg (_ :: ·) ?_
      split
      next hle =>
        unfold addressScript
        split
        next hp =>
          have hcross := crossed_crossedBy h n
          rw [Script.cursors_writes, Script.events_writes, addressWrites_events, crossingCursors_address hp, hcross, ih, ← hcross]
          rfl
        next hp => rfl
      next hle => rfl

/-! ## The log of a DRAW -/

theorem Script.log_finish {script : Script} {v : OpValue} {s t : State} (h : conclude v (script.finish s) = .next t) :
    t.log = s.log := by
  induction script with
  | ended col row =>
    obtain rfl := Host.Outcome.next.inj h
    rfl
  | faulted r col row =>
    obtain rfl := Host.Outcome.next.inj h
    rfl
  | stopped f => cases h
  | write _ _ _ next ih => exact ih h

/-- With an `Ok` to each write, a script that answers a next state has logged its events. -/
theorem Script.log_run {script : Script} {v : OpValue} {s t : State} {es : List Event}
    (hg : s.transport.grants script.events.length) (h : conclude v (script.run s) = .next t) (ht : t.log = s.log ++ es) :
    es = script.events := by
  rw [Script.run_ok script hg] at h
  exact List.append_cancel_left (ht.symm.trans (Script.log_finish h))

theorem Script.conclude_err {script : Script} {v : OpValue} {s : State} {k : Nat} {e : TransportErr} {col row : Byte}
    (hk : script.cursors[k]? = some (col, row)) (h : s.transport.grants k) (he : s.transport.answer k = .reply (.err e)) :
    conclude v (script.run s) =
      .next (((s.setCursor col row).sent (cutAt script.events k e)).returned (.err (.transport e))) := by
  rw [Script.run_err hk h he, conclude_failed]

/-- The first write of a DRAW. -/
theorem drawScript_first (p : Byte) (passes : List Byte) (b : Byte) (more : List Byte) {s : State} (h0 : 0 < roomLeft s) :
    ∃ next, drawScript (p :: passes) (b :: more) s =
      .write s.curCol s.curRow (.data ((b :: more).take (roomLeft s))) next := by
  rw [drawScript, if_neg (Nat.ne_of_gt h0)]
  exact ⟨_, rfl⟩

/-- The page command after a first row that is full. -/
theorem drawScript_fullRow {b : Byte} {more : List Byte} {s : State} (h0 : 0 < roomLeft s)
    (h : roomLeft s ≤ (b :: more).length) (hp : pageOf (crossedRow s) ≤ 7) :
    ∃ es, (drawScript (b :: more) (b :: more) s).events =
        .data ((b :: more).take (roomLeft s)) .ok :: (addressEvents (pageOf (crossedRow s)) s.winStartCol ++ es) ∧
      (drawScript (b :: more) (b :: more) s).cursors[1]? = some (s.winStartCol, crossedRow s) := by
  rw [drawScript_row _ _ h0 h, addressScript_sent hp, Script.events, Script.cursors, Script.events_writes, addressWrites_events]
  exact ⟨_, rfl, rfl⟩

/-- A DRAW's error at any write: the log of the DRAW met by `Ok` answers gives its script's events, and the cursor is the
script's. -/
theorem exec_draw_err {s t : State} {bytes : List Byte} {es : List Event} {k : Nat} {e : TransportErr} (hm : s.mode = .raw)
    (hv : s.winValid = true) (hw : s.WindowOk) (ht : exec (.draw bytes) s.granted = .next t) (hlog : t.log = s.log ++ es)
    (hk : k < es.length) (hg : s.transport.grants k) (he : s.transport.answer k = .reply (.err e)) :
    exec (.draw bytes) s = .next (((s.crossedBy ((es.take (k + 1)).countP isPageStart)).sent (cutAt es k e)).returned
      (.err (.transport e))) := by
  have hscript : drawScript bytes bytes s.granted = drawScript bytes bytes s := drawScript_congr _ _ rfl rfl rfl rfl rfl rfl
  rw [exec_draw (s := s.granted) hm hv, hscript] at ht
  obtain rfl : es = _ := Script.log_run (Agent.grants_alwaysOk _) ht hlog
  have hcursors := cursors_drawScript hw bytes bytes 0
  rw [crossedBy_zero hw] at hcursors
  have hget := crossingCursors_getElem? s 0 hk
  rw [← hcursors, Nat.zero_add] at hget
  rw [exec_draw hm hv, Script.conclude_err hget hg he]
  rfl

/-- Settles O26: the first write and the first page command by the first pass, any write by the script's cursors. -/
theorem drawErrorsAreExact : Obligations.DrawErrorsAreExact := by
  refine ⟨fun s bytes e hm hv hne hcol => ?_, fun s t bytes es k c e hm hv hw ht hlog hk hg he hc => ?_⟩
  · obtain ⟨b, more, rfl⟩ := List.exists_cons_of_ne_nil hne
    have h0 : 0 < roomLeft s := by simp only [roomLeft]; omega
    refine ⟨fun he => ?_, fun hle hp hok he => ?_⟩
    · obtain ⟨next, hnext⟩ := drawScript_first b more b more h0
      rw [exec_draw hm hv, hnext, Script.conclude_err (k := 0) rfl (fun _ hk => absurd hk (Nat.not_lt_zero _)) he, Script.events,
        cutAt_zero]
      rfl
    · obtain ⟨es, hevents, hcursor⟩ := drawScript_fullRow h0 hle hp
      have hg : s.transport.grants 1 := fun k hk => by rwa [Nat.lt_one_iff.1 hk]
      rw [exec_draw hm hv, Script.conclude_err hcursor hg he, hevents, BitVec.ofNat_add]
      rfl
  · subst hc
    exact exec_draw_err hm hv hw ht hlog hk hg he

end Sys2Proof.Machine
end

section
/-! PROOF. A DRAW into a window all of whose page rows the encoder can send: what it sends, how often, and where it lands
(spec/41_display_properties.md R126, spec/20_memory.md R56). -/

namespace Sys2Proof.Machine

/-! ## Completed runs -/

/-- The scripts of DRAWs that complete, from the n-th page row of s's window on: nothing is left, or a chunk ends short of the
end column, or a chunk fills its row and the address sequence of the next page row follows. -/
inductive DrawRun (s : State) : Nat → List Byte → Script → Prop
  | none (n : Nat) : DrawRun s n [] (.ended (s.crossedBy n).curCol (s.crossedBy n).curRow)
  | short (n : Nat) (bytes : List Byte) (hne : bytes ≠ []) (hlt : bytes.length < roomLeft (s.crossedBy n)) :
    DrawRun s n bytes (.write (s.crossedBy n).curCol (s.crossedBy n).curRow (.data bytes)
      (.ended (BitVec.ofNat 8 ((s.crossedBy n).curCol.toNat + bytes.length)) (s.crossedBy n).curRow))
  | row (n : Nat) (chunk rest : List Byte) (next : Script) (hlen : chunk.length = roomLeft (s.crossedBy n))
    (hpage : pageOf (s.crossedBy (n + 1)).curRow ≤ 7) (hnext : DrawRun s (n + 1) rest next) :
    DrawRun s n (chunk ++ rest) (.write (s.crossedBy n).curCol (s.crossedBy n).curRow (.data chunk)
      (.writes s.winStartCol (s.crossedBy (n + 1)).curRow
        (addressWrites (pageOf (s.crossedBy (n + 1)).curRow) s.winStartCol) next))

theorem roomLeft_crossedBy_pos {s : State} (h : s.WindowOk) (n : Nat) : 0 < roomLeft (s.crossedBy n) := by
  have hcols := h.cols
  have hcol := h.colHigh
  simp only [roomLeft, State.crossedBy, State.setCursor_winEndCol, State.setCursor_curCol]
  split <;> omega

theorem roomLeft_crossedBy_succ (s : State) (n : Nat) : roomLeft (s.crossedBy (n + 1)) = windowWidth s := rfl

/-- In a window that fits, every page row is a page the encoder takes (R238). -/
theorem pageOf_crossedBy_le {s : State} (h : s.WindowOk) (hf : windowFits s) (n : Nat) : pageOf (s.crossedBy n).curRow ≤ 7 := by
  have hn := Nat.mod_lt (rowIndex s + n) (windowPages_pos h)
  have hrow : (s.crossedBy n).curRow.toNat = pageRow s (rowIndex s + n) := toNat_pageRow h _
  simp only [windowFits] at hf
  simp only [pageOf, pageHeight, hrow, pageRow]
  omega

/-- DRAW's script in a window that fits is that of a completed run. -/
theorem drawRun_drawScript {s : State} (h : s.WindowOk) (hf : windowFits s) (passes rest : List Byte) (n : Nat)
    (hlen : rest.length ≤ passes.length) : DrawRun s n rest (drawScript passes rest (s.crossedBy n)) := by
  induction passes generalizing rest n with
  | nil =>
    obtain rfl := List.eq_nil_of_length_eq_zero (Nat.le_zero.1 hlen)
    exact .none n
  | cons p passes ih =>
    have h0 := roomLeft_crossedBy_pos h n
    by_cases hne : rest = []
    · subst hne
      exact .none n
    by_cases hle : roomLeft (s.crossedBy n) ≤ rest.length
    · have hcross := crossed_crossedBy h n
      have hp := pageOf_crossedBy_le h hf (n + 1)
      have hnext := ih (rest.drop (roomLeft (s.crossedBy n))) (n + 1) (by simp at hlen ⊢; omega)
      rw [drawScript_row p passes h0 hle, hcross,
        show crossedRow (s.crossedBy n) = (s.crossedBy (n + 1)).curRow from congrArg State.curRow hcross,
        addressScript_sent hp]
      have := DrawRun.row n (rest.take (roomLeft (s.crossedBy n))) _ _ (by simpa using hle) hp hnext
      rwa [List.take_append_drop] at this
    · rw [drawScript_short p passes hne (Nat.lt_of_not_le hle)]
      exact .short n rest hne (Nat.lt_of_not_le hle)

/-! ## The counts of R126, row by row -/

theorem windowWidth_pos {s : State} (h : s.WindowOk) : 0 < windowWidth s := by
  have hcols := h.cols
  simp only [windowWidth]
  omega

/-- A full row is one crossing, and those of the bytes after it follow. -/
theorem drawCrossings_row {s : State} (h : s.WindowOk) (n m : Nat) :
    drawCrossings (s.crossedBy n) (roomLeft (s.crossedBy n) + m) = drawCrossings (s.crossedBy (n + 1)) m + 1 := by
  have hw := windowWidth_pos h
  simp only [drawCrossings, roomLeft_crossedBy_succ, show ∀ k, windowWidth (s.crossedBy k) = windowWidth s from fun _ => rfl,
    Nat.add_sub_cancel_left]
  rw [if_neg (by omega)]
  split
  next hlt => rw [Nat.div_eq_of_lt hlt]
  next hle => rw [Nat.div_eq_sub_div hw (Nat.le_of_not_lt hle)]; omega

/-- A full row is one data write, and those of the bytes after it follow. -/
theorem drawWrites_row {s : State} (h : s.WindowOk) (n m : Nat) :
    drawWrites (s.crossedBy n) (roomLeft (s.crossedBy n) + m) = drawWrites (s.crossedBy (n + 1)) m + 1 := by
  have hw := windowWidth_pos h
  have h0 := roomLeft_crossedBy_pos h n
  simp only [drawWrites, roomLeft_crossedBy_succ, show ∀ k, windowWidth (s.crossedBy k) = windowWidth s from fun _ => rfl,
    Nat.add_sub_cancel_left]
  rw [if_neg (by omega)]
  rcases m with _ | m
  · simp
  have hceil : (m + 1 + windowWidth s - 1) / windowWidth s = m / windowWidth s + 1 := by
    rw [Nat.add_right_comm, Nat.add_sub_cancel, Nat.add_div_right _ hw]
  rw [if_neg (by omega), if_neg (Nat.succ_ne_zero m), hceil]
  split
  next hle => rw [Nat.div_eq_of_lt hle]
  next hgt => rw [Nat.sub_add_cancel (Nat.le_of_not_le hgt), Nat.add_sub_cancel]; omega

/-- The column after m bytes of which the last row was not filled (R126). -/
def endColumn (s : State) (m : Nat) : Nat :=
  if m < roomLeft s then s.curCol.toNat + m else s.winStartCol.toNat + (m - roomLeft s) % windowWidth s

theorem endColumn_row (s : State) (n m : Nat) :
    endColumn (s.crossedBy n) (roomLeft (s.crossedBy n) + m) = endColumn (s.crossedBy (n + 1)) m := by
  simp only [endColumn, roomLeft_crossedBy_succ, show ∀ k, windowWidth (s.crossedBy k) = windowWidth s from fun _ => rfl,
    Nat.add_sub_cancel_left]
  rw [if_neg (by omega)]
  split
  next hlt => rw [Nat.mod_eq_of_lt hlt]; rfl
  next hle => rw [Nat.mod_eq_sub_mod (Nat.le_of_not_lt hle)]; rfl

/-! ## What a completed run sends and where it ends -/

theorem DrawRun.dataOf_events {s : State} {n : Nat} {bytes : List Byte} {script : Script} (run : DrawRun s n bytes script) :
    dataOf script.events = bytes := by
  induction run with
  | none n => rfl
  | short n bytes => simp [Script.events, Write.event, dataOf]
  | row n chunk rest next _ _ _ ih =>
    rw [Script.events, Script.events_writes, addressWrites_events]
    simpa [Write.event, dataOf, addressEvents] using ih

theorem countP_address {page : Nat} (h : page ≤ 7) (col : Byte) :
    (addressEvents page col).countP isPageStart = 1 ∧ (addressEvents page col).countP isData = 0 := by
  have hmap : ((addressEvents page col).map isPageStart).countP id = 1 := by rw [isPageStart_address h]; rfl
  rw [List.countP_map] at hmap
  exact ⟨hmap, rfl⟩

theorem DrawRun.counts {s : State} (h : s.WindowOk) {n : Nat} {bytes : List Byte} {script : Script}
    (run : DrawRun s n bytes script) :
    script.events.countP isPageStart = drawCrossings (s.crossedBy n) bytes.length ∧
      script.events.countP isData = drawWrites (s.crossedBy n) bytes.length ∧
      script.events.length =
        drawWrites (s.crossedBy n) bytes.length + 3 * drawCrossings (s.crossedBy n) bytes.length := by
  induction run with
  | none n =>
    have h0 := roomLeft_crossedBy_pos h n
    simp [Script.events, drawCrossings, drawWrites, h0]
  | short n bytes hne hlt =>
    simp [Script.events, drawCrossings, drawWrites, hlt, Write.event, isPageStart, isData, hne, Nat.le_of_lt hlt]
  | row n chunk rest next hlen hpage _ ih =>
    obtain ⟨hps, hdata, hlength⟩ := ih
    obtain ⟨haps, hadata⟩ := countP_address hpage s.winStartCol
    rw [List.length_append, hlen, drawCrossings_row h, drawWrites_row h, Script.events, Script.events_writes, addressWrites_events,
      Write.event, List.countP_cons_of_neg (by simp [isPageStart]), List.countP_cons_of_pos rfl, List.countP_append,
      List.countP_append, haps, hadata, hps, hdata, List.length_cons, List.length_append, hlength]
    exact ⟨Nat.add_comm .., by omega, by simp [addressEvents]; omega⟩

/-- At most four writes for each byte: what a DRAW can ask of the transport. -/
theorem DrawRun.length_events_le {s : State} (h : s.WindowOk) {n : Nat} {bytes : List Byte} {script : Script}
    (run : DrawRun s n bytes script) : script.events.length ≤ 4 * bytes.length := by
  induction run with
  | none n => exact Nat.le_refl 0
  | short n bytes hne =>
    have hpos := List.length_pos_iff.2 hne
    simp [Script.events]
    omega
  | row n chunk rest next hlen _ _ ih =>
    have h0 := roomLeft_crossedBy_pos h n
    simp [Script.events]
    omega

/-- A completed run ends in the page row of its last crossing, past the bytes that followed it. -/
theorem DrawRun.finish_eq {s : State} (h : s.WindowOk) {n : Nat} {bytes : List Byte} {script : Script}
    (run : DrawRun s n bytes script) (u : State) :
    ∃ col : Byte, script.finish u =
        .done (u.setCursor col (s.crossedBy (n + drawCrossings (s.crossedBy n) bytes.length)).curRow) ∧
      col.toNat = endColumn (s.crossedBy n) bytes.length := by
  induction run with
  | none n =>
    have h0 := roomLeft_crossedBy_pos h n
    refine ⟨(s.crossedBy n).curCol, ?_, ?_⟩
    · rw [drawCrossings, List.length_nil, if_pos h0]
      rfl
    · rw [endColumn, List.length_nil, if_pos h0]
      rfl
  | short n bytes hne hlt =>
    refine ⟨_, ?_, toNat_moved (roomLeft_crossedBy_pos h n) (Nat.le_of_lt hlt) |>.trans ?_⟩
    · rw [drawCrossings, if_pos hlt]
      rfl
    · rw [endColumn, if_pos hlt]
  | row n chunk rest next hlen _ _ ih =>
    obtain ⟨col, hfinish, hcol⟩ := ih
    refine ⟨col, ?_, ?_⟩
    · rw [Script.finish, Script.finish_writes, hfinish, List.length_append, hlen, drawCrossings_row h,
        Nat.add_right_comm n, Nat.add_assoc n]
    · rw [hcol, List.length_append, hlen, endColumn_row]

/-! ## Where the bytes land -/

theorem believed_append (p : Pointer) (es fs : List Event) : believed p (es ++ fs) = believed (believed p es) fs :=
  List.foldl_append

theorem landings_append (p : Pointer) (es fs : List Event) :
    landings p (es ++ fs) = landings p es ++ landings (believed p es) fs := by
  induction es generalizing p with
  | nil => rfl
  | cons e es ih => cases e <;> simp [landings, ih, believed]

theorem toNat_lowNibble (col : Byte) : (lowNibble col).toNat = col.toNat % 16 := by
  simp [lowNibble]

theorem toNat_highNibble (col : Byte) : (highNibble col).toNat = col.toNat / 16 := by
  have hcol := col.isLt
  simp [highNibble, Nat.shiftRight_eq_div_pow]
  omega

/-- An address sequence sets the believed position to its page and column (R121). -/
theorem believed_address {page : Nat} (h : page ≤ 7) (col : Byte) (p : Pointer) :
    believed p (addressEvents page col) = ⟨page, col.toNat⟩ := by
  have hlow : decodeCommand [(lowNibble col).setWidth 8] = .ok (.colLow (lowNibble col)) := by
    simpa using decode_colLow (lowNibble col)
  simp only [believed, addressEvents, List.foldl_cons, List.foldl_nil, Pointer.after, decode_pageStart page h, hlow,
    decode_colHigh, toNat_lowNibble, toNat_highNibble, Pointer.mk.injEq, true_and]
  omega

theorem landings_address (page : Nat) (col : Byte) (p : Pointer) : landings p (addressEvents page col) = [] := rfl

/-- A position in the window's columns and page rows, on a page the encoder takes. -/
def InWindow (s : State) (p : Pointer) : Prop :=
  s.winStartCol.toNat ≤ p.col ∧ p.col < s.winEndCol.toNat ∧
    s.winStartRow.toNat / 8 ≤ p.page ∧ p.page ≤ (s.winEndRow.toNat - 1) / 8 ∧ p.page ≤ 7

/-- Bytes that fit between the cursor and the end column land in the window. -/
theorem inWindow_crossedBy {s : State} (h : s.WindowOk) {n k : Nat} (hpage : pageOf (s.crossedBy n).curRow ≤ 7)
    (hk : k < roomLeft (s.crossedBy n)) :
    InWindow s ⟨pageOf (s.crossedBy n).curRow, (s.crossedBy n).curCol.toNat + k⟩ := by
  have hlow := h.colLow
  have hrow : (s.crossedBy n).curRow.toNat = pageRow s (rowIndex s + n) := toNat_pageRow h _
  have hlt := pageRow_lt h (rowIndex s + n)
  have hge : s.winStartRow.toNat ≤ pageRow s (rowIndex s + n) := Nat.le_add_right _ _
  have hcol : s.winStartCol.toNat ≤ (s.crossedBy n).curCol.toNat := by
    simp only [State.crossedBy, State.setCursor_curCol]
    split <;> omega
  have hend : (s.crossedBy n).winEndCol = s.winEndCol := rfl
  simp only [roomLeft, hend] at hk
  refine ⟨by simp only; omega, by simp only; omega, ?_, ?_, hpage⟩ <;>
    simp only [pageOf, pageHeight, hrow] <;> omega

/-- One data write from the cursor of the n-th page row: its bytes land in the window, and the believed column moves on. -/
theorem landings_chunk {s : State} (h : s.WindowOk) {n : Nat} (hpage : pageOf (s.crossedBy n).curRow ≤ 7) {chunk : List Byte}
    (hlen : chunk.length ≤ roomLeft (s.crossedBy n)) (r : Reply TransportErr) :
    (landings (s.crossedBy n).pointer [.data chunk r]).length = chunk.length ∧
      ∀ p ∈ landings (s.crossedBy n).pointer [.data chunk r], InWindow s p := by
  refine ⟨by simp [landings], fun p hp => ?_⟩
  obtain ⟨k, hk, rfl⟩ : ∃ k < chunk.length, (⟨_, _ + k⟩ : Pointer) = p := by simpa [landings] using hp
  exact inWindow_crossedBy h hpage (Nat.lt_of_lt_of_le hk hlen)

/-- A completed run lands every byte in the window, and the believed position at its end is the cursor's. -/
theorem DrawRun.lands {s : State} (h : s.WindowOk) (hf : windowFits s) {n : Nat} {bytes : List Byte} {script : Script}
    (run : DrawRun s n bytes script) :
    believed (s.crossedBy n).pointer script.events =
        ⟨pageOf (s.crossedBy (n + drawCrossings (s.crossedBy n) bytes.length)).curRow, endColumn (s.crossedBy n) bytes.length⟩ ∧
      (landings (s.crossedBy n).pointer script.events).length = bytes.length ∧
      ∀ p ∈ landings (s.crossedBy n).pointer script.events, InWindow s p := by
  induction run with
  | none n =>
    have h0 := roomLeft_crossedBy_pos h n
    rw [drawCrossings, endColumn, List.length_nil, if_pos h0, if_pos h0]
    exact ⟨rfl, rfl, nofun⟩
  | short n bytes hne hlt =>
    rw [drawCrossings, endColumn, if_pos hlt, if_pos hlt]
    exact ⟨rfl, landings_chunk h (pageOf_crossedBy_le h hf n) (Nat.le_of_lt hlt) .ok⟩
  | row n chunk rest next hlen hpage _ ih =>
    obtain ⟨hbelieved, hcount, hin⟩ := ih
    obtain ⟨hchunk, hchunkIn⟩ := landings_chunk h (pageOf_crossedBy_le h hf n) (Nat.le_of_eq hlen) .ok
    have hevents : ∀ q : Pointer, believed (believed q [Event.data chunk .ok])
        (addressEvents (pageOf (s.crossedBy (n + 1)).curRow) s.winStartCol) = (s.crossedBy (n + 1)).pointer :=
      fun q => believed_address hpage _ _
    rw [Script.events, Script.events_writes, addressWrites_events, Write.event, ← List.singleton_append, believed_append,
      believed_append, landings_append, landings_append, landings_address, List.nil_append, hevents, hbelieved,
      List.length_append, List.length_append, hchunk, hcount, hlen, drawCrossings_row h, endColumn_row,
      Nat.add_right_comm n, Nat.add_assoc n]
    exact ⟨rfl, rfl, fun p hp => (List.mem_append.1 hp).elim (hchunkIn p) (hin p)⟩

/-! ## DRAW -/

/-- A DRAW into a window that fits, with every write answered `Ok`: its script is a completed run's, and it returns `Ok` with
the script's events logged and the cursor where the run ends. -/
theorem exec_draw_fits {s : State} {bytes : List Byte} (hm : s.mode = .raw) (hv : s.winValid = true) (hw : s.WindowOk)
    (hf : windowFits s) (hg : s.transport.grants (4 * bytes.length)) :
    ∃ script col, DrawRun s 0 bytes script ∧ col.toNat = endColumn s bytes.length ∧
      exec (.draw bytes) s = .next (((s.sent script.events).setCursor col
        (s.crossedBy (drawCrossings s bytes.length)).curRow).returned (.ok .unit)) := by
  have run := drawRun_drawScript hw hf bytes bytes 0 (Nat.le_refl _)
  obtain ⟨col, hfinish, hcol⟩ := run.finish_eq hw (s.sent (drawScript bytes bytes (s.crossedBy 0)).events)
  rw [crossedBy_zero hw] at run hfinish hcol
  rw [Nat.zero_add] at hfinish
  refine ⟨_, col, run, hcol, ?_⟩
  rw [exec_draw hm hv, Script.run_ok _ (Agent.grants_mono hg (run.length_events_le hw)), hfinish, conclude_done]

/-- Settles O27: the data writes of a completed run are its bytes. -/
theorem drawSendsExactlyItsBytes : Obligations.DrawSendsExactlyItsBytes := by
  intro s bytes hm hv hw hf hg
  obtain ⟨script, col, run, -, hnext⟩ := exec_draw_fits hm hv hw hf hg
  exact ⟨_, script.events, hnext, rfl, rfl, rfl, rfl, run.dataOf_events⟩

/-- Settles O28: the counts of a completed run. -/
theorem drawCountsAreTheSpecs : Obligations.DrawCountsAreTheSpecs := by
  intro s t bytes es hm hv hw hf hg ht hlog
  obtain ⟨script, col, run, -, hnext⟩ := exec_draw_fits hm hv hw hf hg
  obtain rfl := Host.Outcome.next.inj (hnext.symm.trans ht)
  obtain rfl : script.events = es := List.append_cancel_left hlog
  have hcounts := run.counts hw
  rwa [crossedBy_zero hw] at hcounts

/-- Settles O29: a completed run ends in the page row of its last crossing, past the bytes that followed it. -/
theorem drawMovesTheCursorRoundTheWindow : Obligations.DrawMovesTheCursorRoundTheWindow := by
  intro s t bytes hm hv hw hf hg ht
  obtain ⟨script, col, run, hcol, hnext⟩ := exec_draw_fits hm hv hw hf hg
  obtain rfl := Host.Outcome.next.inj (hnext.symm.trans ht)
  exact ⟨toNat_pageRow hw _, hcol⟩

/-- Settles O30: a completed run lands in the window and believes in its own cursor. -/
theorem drawLandsInsideTheWindow : Obligations.DrawLandsInsideTheWindow := by
  intro s t bytes es hm hv hw hf hg ht hlog
  obtain ⟨script, col, run, hcol, hnext⟩ := exec_draw_fits hm hv hw hf hg
  obtain rfl := Host.Outcome.next.inj (hnext.symm.trans ht)
  obtain rfl : script.events = es := List.append_cancel_left hlog
  obtain ⟨hbelieved, hcount, hin⟩ := run.lands hw hf
  rw [crossedBy_zero hw, Nat.zero_add, ← hcol] at hbelieved
  rw [crossedBy_zero hw] at hcount hin
  exact ⟨hbelieved, hcount, hin⟩

end Sys2Proof.Machine
end

section
/-! PROOF. FLUSH as a script: the window over the panel, the address sequence of its start, and DRAW of the framebuffer's bytes
(spec/42_graphics_surface.md R155, R236). -/

namespace Sys2Proof.Machine

/-! ## Whole rows of a DRAW -/

/-- m whole rows of bytes from the n-th page row on, each followed by the address sequence of the next, and then a rest. -/
def rowsScript (s : State) : Nat → Nat → List Byte → Script → Script
  | 0, _, _, next => next
  | m + 1, n, bytes, next =>
    .write s.winStartCol (s.crossedBy n).curRow (.data (bytes.take (windowWidth s)))
      (.writes s.winStartCol (s.crossedBy (n + 1)).curRow (addressWrites (pageOf (s.crossedBy (n + 1)).curRow) s.winStartCol)
        (rowsScript s m (n + 1) (bytes.drop (windowWidth s)) next))

/-- The events of the p-th of such rows. -/
def rowEvents (s : State) (n : Nat) (bytes : List Byte) (p : Nat) : List Event :=
  .data ((bytes.drop (windowWidth s * p)).take (windowWidth s)) .ok ::
    addressEvents (pageOf (s.crossedBy (n + p + 1)).curRow) s.winStartCol

theorem rowEvents_succ (s : State) (n : Nat) (bytes : List Byte) :
    rowEvents s (n + 1) (bytes.drop (windowWidth s)) = fun p => rowEvents s n bytes (p + 1) := by
  funext p
  rw [rowEvents, rowEvents, List.drop_drop, Nat.mul_succ, Nat.add_comm (windowWidth s), Nat.add_right_comm n 1, Nat.add_assoc n p]

theorem events_rowsScript (s : State) (m n : Nat) (bytes : List Byte) (next : Script) :
    (rowsScript s m n bytes next).events = (List.range m).flatMap (rowEvents s n bytes) ++ next.events := by
  induction m generalizing n bytes with
  | zero => rfl
  | succ m ih =>
    rw [rowsScript, Script.events, Script.events_writes, addressWrites_events, ih, rowEvents_succ, List.range_succ_eq_map,
      List.flatMap_cons, List.flatMap_map, List.append_assoc]
    rfl

/-- The cursor at the writes of the p-th of such rows. -/
def rowCursors (s : State) (n p : Nat) : List (Byte × Byte) :=
  (s.winStartCol, (s.crossedBy (n + p)).curRow) :: List.replicate 3 (s.winStartCol, (s.crossedBy (n + p + 1)).curRow)

theorem rowCursors_succ (s : State) (n : Nat) : rowCursors s (n + 1) = fun p => rowCursors s n (p + 1) := by
  funext p
  rw [rowCursors, rowCursors, Nat.add_right_comm n 1, Nat.add_assoc n p]

theorem cursors_rowsScript (s : State) (m n : Nat) (bytes : List Byte) (next : Script) :
    (rowsScript s m n bytes next).cursors = (List.range m).flatMap (rowCursors s n) ++ next.cursors := by
  induction m generalizing n bytes with
  | zero => rfl
  | succ m ih =>
    rw [rowsScript, Script.cursors, Script.cursors_writes, ih, rowCursors_succ, List.range_succ_eq_map, List.flatMap_cons,
      List.flatMap_map, List.append_assoc]
    rfl

theorem finish_rowsScript (s : State) (m n : Nat) (bytes : List Byte) (next : Script) :
    (rowsScript s m n bytes next).finish = next.finish := by
  induction m generalizing n bytes with
  | zero => rfl
  | succ m ih => rw [rowsScript, Script.finish_write, Script.finish_writes, ih]

/-- A DRAW from a window's start column sends whole rows while the encoder takes their pages, and goes on with the bytes left. -/
theorem drawScript_rows {s : State} (h : s.WindowOk) (hcol : s.curCol = s.winStartCol) {passes rest : List Byte}
    (hpasses : rest.length ≤ passes.length) {m n : Nat} (hlen : windowWidth s * m ≤ rest.length)
    (hpages : ∀ p < m, pageOf (s.crossedBy (n + p + 1)).curRow ≤ 7) :
    drawScript passes rest (s.crossedBy n) = rowsScript s m n rest
      (drawScript (passes.drop m) (rest.drop (windowWidth s * m)) (s.crossedBy (n + m))) := by
  induction m generalizing passes rest n with
  | zero => rfl
  | succ m ih =>
    have hw := windowWidth_pos h
    have hcur : (s.crossedBy n).curCol = s.winStartCol := by
      rw [State.crossedBy, State.setCursor_curCol, hcol, ite_self]
    have hroom : roomLeft (s.crossedBy n) = windowWidth s := by
      rw [roomLeft, hcur]
      rfl
    rw [Nat.mul_succ] at hlen
    have hone : windowWidth s ≤ rest.length := Nat.le_trans (Nat.le_add_left _ _) hlen
    obtain ⟨p, passes, rfl⟩ := List.exists_cons_of_length_pos (Nat.lt_of_lt_of_le (Nat.lt_of_lt_of_le hw hone) hpasses)
    have hcross := crossed_crossedBy h n
    have hrow : crossedRow (s.crossedBy n) = (s.crossedBy (n + 1)).curRow := congrArg State.curRow hcross
    have hnext := ih (passes := passes) (rest := rest.drop (windowWidth s)) (n := n + 1)
      (by simp at hpasses ⊢; omega) (by simp; omega)
      (fun p hp => by rw [Nat.add_right_comm n, Nat.add_assoc n p]; exact hpages (p + 1) (Nat.succ_lt_succ hp))
    rw [drawScript_row p passes (by rwa [hroom]) (by rwa [hroom]), hcross, hroom, hcur, hrow,
      addressScript_sent (hpages 0 (Nat.succ_pos m)), hnext, List.drop_drop, Nat.mul_succ, Nat.add_comm (windowWidth s),
      Nat.add_right_comm n 1, Nat.add_assoc n m]
    rfl

/-! ## FLUSH's body -/

/-- The script of FLUSH's body once the window is set, from what the framebuffer's bytes are read as (R155). -/
def flushScript (read : Option (List Byte)) (area : State) : Script :=
  addressScript 0 0 (match read with
    | some bytes => drawScript bytes bytes area
    | none => .stopped .framebufferAbsent)

/-- FLUSH's body, for the geometry it uses: the window, the address sequence, DRAW of the framebuffer's bytes (R155). -/
theorem flushBody_eq {d : FlushDims} {s : State} {w h : Byte} (hdims : flushDimensions d s = (w, h)) (hw : 0 < w.toNat)
    (hh : 0 < h.toNat) :
    flushBody d s = (flushScript (s.fb.readSeq 0 (w.toNat * h.toNat / 8)) (s.setDrawArea 0 0 w h)).run
      (s.setDrawArea 0 0 w h) := by
  have hoff : s.size.colOff = 0 := by cases s.size; rfl
  have harea : drawAreaBody 0 0 w h s = sendDrawAddress (s.setDrawArea 0 0 w h) := if_pos ⟨hw, hh⟩
  simp only [flushBody, flushLength, hdims, hoff, Nat.add_zero, BitVec.ofNat_toNat, BitVec.setWidth_eq]
  refine (congrArg (Flow.andThen · _) harea).trans (sendDrawAddress_andThen (s := s.setDrawArea 0 0 w h) fun es => ?_)
  have hfb : ((s.setDrawArea 0 0 w h).sent es).fb = s.fb := rfl
  rw [hfb]
  cases s.fb.readSeq 0 (w.toNat * h.toNat / 8) with
  | none => rfl
  | some bytes => exact (if_pos rfl : drawBody bytes ((s.setDrawArea 0 0 w h).sent es) = _).trans (drawLoop_script _ _ _ _)

theorem flushBody_script {d : FlushDims} {s : State} {w h : Byte} (hdims : flushDimensions d s = (w, h)) (hw : 0 < w.toNat)
    (hh : 0 < h.toNat) {bytes : List Byte} (hbytes : s.fb.readSeq 0 (w.toNat * h.toNat / 8) = some bytes) :
    flushBody d s =
      (addressScript 0 0 (drawScript bytes bytes (s.setDrawArea 0 0 w h))).run (s.setDrawArea 0 0 w h) := by
  rw [flushBody_eq hdims hw hh, hbytes]
  rfl

/-- The geometry of the panel is never empty (R21, R152). -/
theorem flushDimensions_pos (s : State) :
    0 < (flushDimensions .rotated s).1.toNat ∧ 0 < (flushDimensions .rotated s).2.toNat := by
  rw [flushDimensions, dimensionsOf_eq]
  split <;> decide

theorem windowOk_panel (s : State) {w h : Byte} (hw : 0 < w.toNat) (hh : 0 < h.toNat) : (s.setDrawArea 0 0 w h).WindowOk :=
  ⟨hw, hh, Nat.le_refl _, hw, Nat.le_refl _, hh, rfl⟩

/-- The n-th page row of a window that begins at row 0. -/
theorem curRow_panel (s : State) (w h : Byte) (n : Nat) :
    ((s.setDrawArea 0 0 w h).crossedBy n).curRow = BitVec.ofNat 8 (8 * (n % ((h.toNat + 7) / 8))) := by
  simp [State.crossedBy, pageRow, rowIndex, windowPages, State.setDrawArea]

theorem pageOf_panel (s : State) (w : Byte) {h : Byte} (hh : 0 < h.toNat) (n : Nat) :
    pageOf ((s.setDrawArea 0 0 w h).crossedBy n).curRow = n % ((h.toNat + 7) / 8) := by
  have hlt := h.isLt
  have hn := Nat.mod_lt n (y := (h.toNat + 7) / 8) (by omega)
  rw [curRow_panel, pageOf, pageHeight, BitVec.toNat_ofNat]
  omega

theorem rowEvents_panel (s : State) (w : Byte) {h : Byte} (hh : 0 < h.toNat) (bytes : List Byte) :
    rowEvents (s.setDrawArea 0 0 w h) 0 bytes = fun p => .data ((bytes.drop (w.toNat * p)).take w.toNat) .ok ::
      addressEvents ((p + 1) % ((h.toNat + 7) / 8)) 0 := funext fun p => by
  rw [rowEvents, pageOf_panel s w hh, Nat.zero_add]
  rfl

theorem rowCursors_panel (s : State) (w h : Byte) :
    rowCursors (s.setDrawArea 0 0 w h) 0 = fun p => (0, BitVec.ofNat 8 (8 * (p % ((h.toNat + 7) / 8)))) ::
      List.replicate 3 (0, BitVec.ofNat 8 (8 * ((p + 1) % ((h.toNat + 7) / 8)))) := funext fun p => by
  rw [rowCursors, curRow_panel, curRow_panel, Nat.zero_add]
  rfl

/-! ## The eight rows at 0 and 180 degrees -/

/-- The cursor at each of the 35 writes: three of the first address sequence, then each row's data write and crossing. -/
theorem flushCursors_getElem? : ∀ k < 35,
    (List.replicate 3 (0, 0) ++ (List.range 8).flatMap fun p => (0, BitVec.ofNat 8 (8 * (p % 8))) ::
      List.replicate 3 (0, BitVec.ofNat 8 (8 * ((p + 1) % 8))) : List (Byte × Byte))[k]? =
      some (0, BitVec.ofNat 8 (8 * (k / 4 % 8))) := by
  decide

/-- FLUSH of a panel 128 wide and 64 high: eight whole rows, the last crossing back to the first (R155). -/
theorem flushBody_wide {d : FlushDims} {s : State} (hdims : flushDimensions d s = (128, 64)) {bytes : List Byte}
    (hbytes : s.fb.readSeq 0 1024 = some bytes) (hlen : bytes.length = 1024) :
    ∃ script : Script, flushBody d s = script.run (s.setDrawArea 0 0 128 64) ∧ script.events = flushEvents 128 bytes ∧
      (∀ k < 35, script.cursors[k]? = some (0, BitVec.ofNat 8 (8 * (k / 4 % 8)))) ∧
      ∀ u, script.finish u = .done (u.setCursor 0 0) := by
  have hw := windowOk_panel s (w := 128) (h := 64) (by decide) (by decide)
  have hrows := drawScript_rows hw rfl (Nat.le_refl bytes.length) (m := 8) (n := 0) (Nat.le_of_eq hlen.symm)
    (fun p _ => by rw [pageOf_panel s 128 (by decide)]; exact Nat.le_of_lt_succ (Nat.mod_lt _ (by decide)))
  have hnone : bytes.drop (windowWidth (s.setDrawArea 0 0 128 64) * 8) = [] := List.drop_of_length_le (Nat.le_of_eq hlen)
  rw [crossedBy_zero hw, hnone, drawScript_nil] at hrows
  refine ⟨_, flushBody_script hdims (by decide) (by decide) hbytes, ?_, ?_, fun u => ?_⟩ <;>
    rw [hrows, addressScript_sent (by decide)]
  · rw [Script.events_writes, events_rowsScript, addressWrites_events, Script.events, List.append_nil,
      rowEvents_panel s 128 (by decide)]
    rfl
  · rw [Script.cursors_writes, cursors_rowsScript, Script.cursors, List.append_nil, rowCursors_panel]
    exact flushCursors_getElem?
  · rw [Script.finish_writes, finish_rowsScript, Script.finish, curRow_panel]
    rfl

/-- A whole framebuffer read in order (R27, R155). -/
theorem Memory.covers.readSeq {m : Memory} (h : m.covers 1024) :
    ∃ bytes, m.readSeq 0 1024 = some bytes ∧ bytes.length = 1024 ∧ ∀ i, i < 1024 → bytes[i]? = m.read i :=
  ⟨_, Memory.readSeq_of_covers m 1024 h, by rw [List.length_map, Memory.length_of_covers m 1024 h],
    fun i _ => Memory.getElem?_bytes m 1024 i h⟩

theorem State.Inv.covers_1024 {s : State} (h : s.Inv) (hm : s.mode = .graphics) : s.fb.covers 1024 := by
  rw [← SizeCode.fbBytes_eq s.size]
  exact h.fbPresent hm

theorem exec_flush {s : State} (hm : s.mode = .graphics) : exec .flush s = conclude .unit (flushBody .rotated s) :=
  exec_operation (op := .flush) rfl (by rw [hm]; rfl)

/-- Settles O44: the script of eight whole rows, run against `Ok` answers or cut by the first error. -/
theorem flushSendsTheWholeFramebuffer : Obligations.FlushSendsTheWholeFramebuffer := by
  intro s hm hinv hrot
  have hdims : flushDimensions .rotated s = (128, 64) := by
    rw [flushDimensions, dimensionsOf_eq]
    rcases hrot with h | h <;> rw [h] <;> rfl
  obtain ⟨bytes, hbytes, hlen, hread⟩ := (hinv.covers_1024 hm).readSeq
  obtain ⟨script, hscript, hevents, hcursors, hfinish⟩ := flushBody_wide hdims hbytes hlen
  refine ⟨bytes, hlen, hread, fun hg => ?_, fun k e hk hg he => ?_⟩ <;> rw [exec_flush hm, hscript]
  · rw [Script.run_ok script (by rwa [hevents]), hfinish, hevents]
    rfl
  · rw [Script.conclude_err (s := s.setDrawArea 0 0 128 64) (hcursors k hk) hg he, hevents]
    rfl

/-- Settles O46: at 0 degrees the rotated geometry is the unrotated one, and the script does not look at `ROT`. -/
theorem flushUnrotatedIsTheZeroDegreeCase : Obligations.FlushUnrotatedIsTheZeroDegreeCase := by
  intro s rot hm hinv hg
  obtain ⟨bytes, hbytes, hlen, -⟩ := (hinv.covers_1024 hm).readSeq
  have hdone : ∀ d r, flushDimensions d (s.setRot r) = (128, 64) → flushBody d (s.setRot r) =
      .done ((((s.setDrawArea 0 0 128 64).sent (flushEvents 128 bytes)).setCursor 0 0).setRot r) := fun d r hdims => by
    obtain ⟨script, hscript, hevents, -, hfinish⟩ := flushBody_wide hdims hbytes hlen
    rw [hscript, Script.run_ok script (by rwa [hevents]), hfinish, hevents]
    rfl
  have hsize : s.size = .size128x64 := by cases s.size; rfl
  exact ⟨_, hdone .rotated .deg0 (by rw [flushDimensions, dimensionsOf_eq]; rfl),
    hdone .unrotated rot (by simp only [flushDimensions, State.setRot_size, hsize]; rfl)⟩

/-! ## The eight rows at 90 and 270 degrees -/

/-- The cursor at each of the 32 writes before the fault. -/
theorem flushRotatedCursors_getElem? : ∀ k < 32,
    (List.replicate 3 (0, 0) ++ (((List.range 7).flatMap fun p => (0, BitVec.ofNat 8 (8 * (p % 16))) ::
      List.replicate 3 (0, BitVec.ofNat 8 (8 * ((p + 1) % 16)))) ++ [(0, 56)]) : List (Byte × Byte))[k]? =
      some (0, BitVec.ofNat 8 (8 * (k / 4))) := by
  decide

/-- The events of a rotated flush before its fault: seven whole rows and the eighth row's data write (R236). -/
def flushRotatedEvents (bytes : List Byte) : List Event :=
  addressEvents 0 0 ++
    ((List.range 7).flatMap fun p => .data ((bytes.drop (64 * p)).take 64) .ok :: addressEvents (p + 1) 0) ++
    [.data ((bytes.drop 448).take 64) .ok]

/-- The eighth row of a panel 64 wide: its data write, and the fault of its crossing. -/
theorem drawScript_tall_last (s : State) (b : Byte) (passes : List Byte) {rest : List Byte} (h : rest.length = 576) :
    drawScript (b :: passes) rest ((s.setDrawArea 0 0 64 128).crossedBy 7) =
      .write 0 56 (.data (rest.take 64)) (.faulted (.pageOutOfRange 8) 0 64) := by
  have hw := windowOk_panel s (w := 64) (h := 128) (by decide) (by decide)
  have hroom : roomLeft ((s.setDrawArea 0 0 64 128).crossedBy 7) = 64 := rfl
  have hrow : crossedRow ((s.setDrawArea 0 0 64 128).crossedBy 7) = 64 :=
    (congrArg State.curRow (crossed_crossedBy hw 7)).trans (curRow_panel s 64 128 8)
  rw [drawScript_row b passes (by rw [hroom]; decide) (by rw [hroom, h]; decide), hroom, hrow, addressScript_faulted (by decide),
    curRow_panel]
  rfl

/-- FLUSH of a panel 64 wide and 128 high: seven whole rows, and the eighth's crossing faults at page 8 (R236). -/
theorem flushBody_tall {d : FlushDims} {s : State} (hdims : flushDimensions d s = (64, 128)) {bytes : List Byte}
    (hbytes : s.fb.readSeq 0 1024 = some bytes) (hlen : bytes.length = 1024) :
    ∃ script : Script, flushBody d s = script.run (s.setDrawArea 0 0 64 128) ∧ script.events = flushRotatedEvents bytes ∧
      (∀ k < 32, script.cursors[k]? = some (0, BitVec.ofNat 8 (8 * (k / 4)))) ∧
      ∀ u, script.finish u = .raised (.pageOutOfRange 8) (u.setCursor 0 64) := by
  have hw := windowOk_panel s (w := 64) (h := 128) (by decide) (by decide)
  have hrows := drawScript_rows hw rfl (Nat.le_refl bytes.length) (m := 7) (n := 0)
    (by rw [hlen]; exact (by decide : 64 * 7 ≤ 1024))
    (fun p hp => by rw [pageOf_panel s 64 (by decide)]; exact Nat.le_trans (Nat.mod_le _ _) (by omega))
  have hwidth : windowWidth (s.setDrawArea 0 0 64 128) = 64 := rfl
  obtain ⟨b, passes, hpasses⟩ := List.exists_cons_of_length_pos (l := bytes.drop 7) (by rw [List.length_drop]; omega)
  rw [crossedBy_zero hw, hpasses, drawScript_tall_last s b passes (by rw [List.length_drop, hlen, hwidth])] at hrows
  refine ⟨_, flushBody_script hdims (by decide) (by decide) hbytes, ?_, ?_, fun u => ?_⟩ <;>
    rw [hrows, addressScript_sent (by decide)]
  · rw [Script.events_writes, events_rowsScript, addressWrites_events, rowEvents_panel s 64 (by decide), ← List.append_assoc]
    rfl
  · rw [Script.cursors_writes, cursors_rowsScript, rowCursors_panel]
    exact flushRotatedCursors_getElem?
  · rw [Script.finish_writes, finish_rowsScript]
    rfl

/-- The events before the fault are the first 32 of a flush of eight rows. -/
theorem flushEvents_eq_append (bytes : List Byte) : flushEvents 64 bytes = flushRotatedEvents bytes ++ addressEvents 0 0 := rfl

/-- Settles O45: the script of seven rows and a fault, run against `Ok` answers or cut by the first error. -/
theorem flushRotatedFaultsAtPageEight : Obligations.FlushRotatedFaultsAtPageEight := by
  intro s hm hinv hrot
  have hdims : flushDimensions .rotated s = (64, 128) := by
    rw [flushDimensions, dimensionsOf_eq]
    rcases hrot with h | h <;> rw [h] <;> rfl
  obtain ⟨bytes, hbytes, hlen, hread⟩ := (hinv.covers_1024 hm).readSeq
  obtain ⟨script, hscript, hevents, hcursors, hfinish⟩ := flushBody_tall hdims hbytes hlen
  refine ⟨bytes, hlen, hread, fun hg => ?_, fun k e hk hg he => ?_⟩ <;> rw [exec_flush hm, hscript]
  · rw [Script.run_ok script (by rwa [hevents]), hfinish, hevents]
    rfl
  · rw [Script.conclude_err (s := s.setDrawArea 0 0 64 128) (hcursors k hk) hg he, hevents, flushEvents_eq_append,
      cutAt_append_left hk]
    rfl

end Sys2Proof.Machine
end

section
/-! PROOF. What an error or a silent agent does to any operation (spec/60_exceptions.md R202, R203, R208, spec/70_reset_and_hazards.md
R242): every body that writes to the transport is a script, which an error cuts; the other bodies send nothing, and RESET's is a
list of edges. -/

namespace Sys2Proof.Machine

/-! ## The bodies that are scripts -/

/-- Whether the body of an instruction writes to the transport. -/
def writesTransport : Instr → Bool
  | .clockDiv _ | .contrast _ | .precharge _ | .scrollOn | .scrollOff | .cmdDisplayOn | .cmdDisplayOff | .segRemap1
  | .segRemap0 | .comReverse | .comNormal | .pageStart _ | .colLow _ | .colHigh _ => true
  | .init | .initRaw | .flush | .setDrawArea _ _ _ _ | .draw _ | .setRotation _ | .displayOn _ | .setContrast _ => true
  | .connect _ | .withSize _ _ | .withRotation _ _ | .reset _ | .clear | .setPixel _ _ _ | .pixelEvent _ _ _
  | .getDimensions | .release | .enterGraphics | .unwrap => false

/-- Between s and u the events were logged, and the position, FAULT and REFUSED stayed. -/
structure Logged (s u : State) (es : List Event) : Prop where
  log     : u.log = s.log ++ es
  pos     : u.pos = s.pos
  fault   : u.fault = s.fault
  refused : u.refused = s.refused

theorem Logged.of_same {s u : State} (hlog : u.log = s.log) (hpos : u.pos = s.pos) (hfault : u.fault = s.fault)
    (hrefused : u.refused = s.refused) : Logged s u [] :=
  ⟨hlog.trans (List.append_nil _).symm, hpos, hfault, hrefused⟩

theorem Logged.sent (s : State) (es : List Event) : Logged s (s.sent es) es := ⟨rfl, rfl, rfl, rfl⟩

theorem Logged.trans {s u v : State} {es fs : List Event} (h : Logged s u es) (h' : Logged u v fs) : Logged s v (es ++ fs) :=
  ⟨by rw [h'.log, h.log, List.append_assoc], h'.pos.trans h.pos, h'.fault.trans h.fault, h'.refused.trans h.refused⟩

/-- s with another transport, PHASE and framebuffer: what no script depends on. -/
def State.withOthers (s : State) (a : Agent TransportErr) (p : Phase) (m : Memory) : State :=
  { s with transport := a, phase := p, fb := m }

/-- From s the body of an instruction is a script, whatever the transport, PHASE and the framebuffer, of which only FLUSH's
depends on the last. -/
def HasScript (i : Instr) (s : State) : Prop :=
  ∃ (script : Script) (u : State) (onOk onErr : Phase → Phase), Logged s u [] ∧ ∀ a p m, (i = .flush → m = s.fb) →
    bodyOf i (s.withOthers a p m) = (script.run (u.withOthers a p m)).movePhase onOk onErr

theorem Flow.movePhase_id (x : Flow) : x.movePhase id id = x := by
  cases x <;> rfl

theorem HasScript.of_run {i : Instr} {s u : State} (script : Script) (hu : Logged s u [])
    (h : ∀ a p m, (i = .flush → m = s.fb) → bodyOf i (s.withOthers a p m) = script.run (u.withOthers a p m)) :
    HasScript i s :=
  ⟨script, u, id, id, hu, fun a p m hm => by rw [h a p m hm, Flow.movePhase_id]⟩

theorem Logged.refl (s : State) : Logged s s [] := .of_same rfl rfl rfl rfl

theorem hasScript_of_cmdWrite {i : Instr} {c : List Byte} (h : bodyOf i = cmdWrite c) (s : State) : HasScript i s := by
  refine .of_run (.writes s.curCol s.curRow [.cmd c] (.ended s.curCol s.curRow)) (Logged.refl s) fun a p m _ => ?_
  rw [h, ← sendCommands_singleton]
  exact sendCommands_script [c] (s.withOthers a p m)

theorem hasScript_pageStart (page : Nat) (s : State) : HasScript (.pageStart page) s := by
  by_cases hp : page ≤ 7
  · exact hasScript_of_cmdWrite (i := .pageStart page) (c := [0xB0 + BitVec.ofNat 8 page])
      (funext fun u => sendPageStart_ok page u hp) s
  · exact .of_run (.faulted (.pageOutOfRange page) s.curCol s.curRow) (Logged.refl s)
      fun a p m _ => sendPageStart_raised page _ (Nat.lt_of_not_le hp)

theorem hasScript_initialization {i : Instr} (h : bodyOf i = initBody) (s : State) : HasScript i s := by
  refine ⟨.writes s.curCol s.curRow ((initCommands (remapBytes s.rot).1 (remapBytes s.rot).2).map .cmd) (.ended s.curCol s.curRow),
    s, phaseAfterInit, fun _ => .unreset, Logged.refl s, fun a p m _ => ?_⟩
  rw [h, initBody, initSequence_eq]
  exact congrArg (Flow.movePhase · _ _) (sendCommands_script _ (s.withOthers a p m))

theorem hasScript_setRotation (rot : Rotation) (s : State) : HasScript (.setRotation rot) s := by
  refine .of_run (u := s.setRot rot) (.writes s.curCol s.curRow ([[(remapBytes rot).1], [(remapBytes rot).2]].map .cmd)
    (.ended s.curCol s.curRow)) (.of_same rfl rfl rfl rfl) fun a p m _ => ?_
  rw [bodyOf, rotationBody, sendRemap_eq]
  exact sendCommands_script _ ((s.setRot rot).withOthers a p m)

theorem hasScript_setDrawArea (sc sr ec er : Byte) (s : State) : HasScript (.setDrawArea sc sr ec er) s := by
  by_cases h : sc.toNat < ec.toNat ∧ sr.toNat < er.toNat
  · refine .of_run (u := s.setDrawArea sc sr ec er) (addressScript sc sr (.ended sc sr)) (.of_same rfl rfl rfl rfl) fun a p m _ => ?_
    exact (if_pos h : drawAreaBody sc sr ec er (s.withOthers a p m) = _).trans
      (sendDrawAddress_script ((s.setDrawArea sc sr ec er).withOthers a p m))
  · exact .of_run (.faulted (.illegalWindow sc sr ec er) s.curCol s.curRow) (Logged.refl s) fun a p m _ => if_neg h

theorem drawScript_withOthers (passes rest : List Byte) (s : State) (a : Agent TransportErr) (p : Phase) (m : Memory) :
    drawScript passes rest (s.withOthers a p m) = drawScript passes rest s :=
  drawScript_congr passes rest rfl rfl rfl rfl rfl rfl

theorem hasScript_draw (bytes : List Byte) (s : State) : HasScript (.draw bytes) s := by
  by_cases hv : s.winValid = true
  · refine .of_run (drawScript bytes bytes s) (Logged.refl s) fun a p m _ => ?_
    have hloop := drawLoop_script bytes bytes (s.withOthers a p m) []
    rw [State.sent_nil, drawScript_withOthers] at hloop
    exact (if_pos hv : drawBody bytes (s.withOthers a p m) = _).trans hloop
  · exact .of_run (.faulted .windowUnset s.curCol s.curRow) (Logged.refl s) fun a p m _ => if_neg hv

theorem flushScript_withOthers (read : Option (List Byte)) (s : State) (a : Agent TransportErr) (p : Phase) (m : Memory) :
    flushScript read (s.withOthers a p m) = flushScript read s := by
  cases read with
  | none => rfl
  | some bytes => exact congrArg (addressScript 0 0) (drawScript_withOthers bytes bytes s a p m)

theorem hasScript_flush (s : State) : HasScript .flush s := by
  obtain ⟨hw, hh⟩ := flushDimensions_pos s
  generalize hdims : flushDimensions .rotated s = dims at hw hh
  refine .of_run (u := s.setDrawArea 0 0 dims.1 dims.2)
    (flushScript (s.fb.readSeq 0 (dims.1.toNat * dims.2.toNat / 8)) (s.setDrawArea 0 0 dims.1 dims.2)) (.of_same rfl rfl rfl rfl)
    fun a p m hm => ?_
  obtain rfl := hm rfl
  rw [← flushScript_withOthers _ _ a p s.fb]
  exact flushBody_eq (d := .rotated) (s := s.withOthers a p s.fb) hdims hw hh

/-- Every body that writes to the transport is a script. -/
theorem hasScript {i : Instr} (h : writesTransport i = true) (s : State) : HasScript i s := by
  cases i with
  | clockDiv | contrast | precharge | scrollOn | scrollOff | cmdDisplayOn | cmdDisplayOff | segRemap1 | segRemap0
  | comReverse | comNormal | colLow | colHigh | displayOn | setContrast => exact hasScript_of_cmdWrite rfl s
  | pageStart page => exact hasScript_pageStart page s
  | init | initRaw => exact hasScript_initialization rfl s
  | setRotation rot => exact hasScript_setRotation rot s
  | setDrawArea sc sr ec er => exact hasScript_setDrawArea sc sr ec er s
  | draw bytes => exact hasScript_draw bytes s
  | flush => exact hasScript_flush s
  | connect | withSize | withRotation | reset | clear | setPixel | pixelEvent | getDimensions | release | enterGraphics
  | unwrap => exact absurd h Bool.false_ne_true

/-! ## The bodies that send nothing -/

/-- A body that neither writes to the transport nor to the pin ends with nothing logged, or stops the machine. -/
theorem bodyOf_quiet {i : Instr} (h : writesTransport i = false) (hreset : ∀ pin, i ≠ .reset pin) (s : State) :
    (∃ u, bodyOf i s = .done u ∧ Logged s u []) ∨ ∃ f, bodyOf i s = .stuck f := by
  have hpixel : ∀ x y on, (∃ u, setPixelBody x y on s = .done u ∧ Logged s u []) ∨ ∃ f, setPixelBody x y on s = .stuck f := by
    intro x y on
    obtain ⟨hb, -⟩ | ⟨idx, bit, b, -, -, hb⟩ | ⟨idx, bit, -, -, hb⟩ := setPixelBody_cases x y on s
    · exact .inl ⟨_, hb, Logged.refl s⟩
    · exact .inl ⟨_, hb, .of_same rfl rfl rfl rfl⟩
    · exact .inr ⟨_, hb⟩
  cases i with
  | connect | withSize | withRotation | clear | getDimensions | release | enterGraphics | unwrap =>
    exact .inl ⟨_, rfl, .of_same rfl rfl rfl rfl⟩
  | setPixel => exact hpixel _ _ _
  | pixelEvent x y color =>
    rw [bodyOf, pixelEventBody]
    split
    · exact .inl ⟨s, rfl, Logged.refl s⟩
    · exact hpixel _ _ _
  | reset pin => exact absurd rfl (hreset pin)
  | clockDiv | contrast | precharge | scrollOn | scrollOff | cmdDisplayOn | cmdDisplayOff | segRemap1 | segRemap0
  | comReverse | comNormal | pageStart | colLow | colHigh | init | initRaw | flush | setDrawArea | draw | setRotation
  | displayOn | setContrast => exact absurd h Bool.noConfusion

/-! ## The first error ends a body -/

/-- From s a body has logged events answered `Ok` and ended or faulted, or events answered `Ok` and then the one whose error it
fails with (R202, R203). -/
def StopsAtError (s : State) : Flow → Prop
  | .done u | .raised _ u => ∃ es, Logged s u es ∧ ∀ e ∈ es, e.error = none
  | .failed err u => ∃ es e, Logged s u (es ++ [e]) ∧ (∀ f ∈ es, f.error = none) ∧ e.error = some err
  | .stuck _ => True

/-- What was logged without an error before a body may be counted with it. -/
theorem StopsAtError.after {s u : State} {es : List Event} {x : Flow} (h : StopsAtError u x) (hu : Logged s u es)
    (hes : ∀ e ∈ es, e.error = none) : StopsAtError s x := by
  have hall : ∀ fs : List Event, (∀ f ∈ fs, f.error = none) → ∀ f ∈ es ++ fs, f.error = none :=
    fun fs hfs f hf => (List.mem_append.1 hf).elim (hes f) (hfs f)
  cases x with
  | done v | raised r v =>
    obtain ⟨fs, hv, hfs⟩ := h
    exact ⟨_, hu.trans hv, hall fs hfs⟩
  | failed err v =>
    obtain ⟨fs, e, hv, hfs, he⟩ := h
    exact ⟨_, e, by simpa using hu.trans hv, hall fs hfs, he⟩
  | stuck f => trivial

theorem StopsAtError.andThen {s : State} {x : Flow} {k : State → Flow} (hx : StopsAtError s x)
    (hk : ∀ u, StopsAtError u (k u)) : StopsAtError s (x.andThen k) := by
  cases x with
  | done u =>
    obtain ⟨es, hu, hes⟩ := hx
    exact (hk u).after hu hes
  | failed err u => exact hx
  | raised r u => exact hx
  | stuck f => trivial

theorem StopsAtError.movePhase {s : State} {x : Flow} (hx : StopsAtError s x) (onOk onErr : Phase → Phase) :
    StopsAtError s (x.movePhase onOk onErr) := by
  cases x with
  | done u =>
    obtain ⟨es, ⟨hlog, hpos, hfault, hrefused⟩, hes⟩ := hx
    exact ⟨es, ⟨hlog, hpos, hfault, hrefused⟩, hes⟩
  | failed err u =>
    obtain ⟨es, e, ⟨hlog, hpos, hfault, hrefused⟩, hes, he⟩ := hx
    exact ⟨es, e, ⟨hlog, hpos, hfault, hrefused⟩, hes, he⟩
  | raised r u => exact hx
  | stuck f => trivial

theorem Write.error_event (w : Write) (r : Reply TransportErr) :
    (w.event r).error = match r with | .ok => none | .err e => some (.transport e) := by
  cases w <;> cases r <;> rfl

theorem transportWrite_stopsAtError (w : Write) (s : State) : StopsAtError s (transportWrite w.event s) := by
  cases h : s.transport.answer 0 with
  | never =>
    rw [transportWrite_never _ s h]
    trivial
  | reply r =>
    cases r with
    | ok =>
      rw [transportWrite_ok _ s h]
      exact ⟨_, Logged.sent s _, by simp [Write.error_event]⟩
    | err e =>
      rw [transportWrite_err _ s e h]
      exact ⟨[], _, Logged.sent s _, nofun, Write.error_event w _⟩

theorem Script.stopsAtError (script : Script) (s : State) : StopsAtError s (script.run s) := by
  induction script generalizing s with
  | ended col row => exact ⟨[], .of_same rfl rfl rfl rfl, nofun⟩
  | faulted r col row => exact ⟨[], .of_same rfl rfl rfl rfl, nofun⟩
  | stopped f => trivial
  | write col row w next ih =>
    exact ((transportWrite_stopsAtError w (s.setCursor col row)).andThen ih).after (es := []) (.of_same rfl rfl rfl rfl) nofun

theorem pinSet_stopsAtError (pin : PinSel) (l : Level) (s : State) : StopsAtError s (pinSet pin l s) := by
  cases pin with
  | noOp => exact ⟨[.pin l .ok], ⟨rfl, rfl, rfl, rfl⟩, by simp [Event.error]⟩
  | wired =>
    simp only [pinSet]
    split
    · exact ⟨[.pin l .ok], ⟨rfl, rfl, rfl, rfl⟩, by simp [Event.error]⟩
    · exact ⟨[], .pin l _, ⟨rfl, rfl, rfl, rfl⟩, nofun, rfl⟩
    · trivial

theorem pulseEdges_stopsAtError (pin : PinSel) (ls : List Level) (s : State) : StopsAtError s (pulseEdges pin ls s) := by
  induction ls generalizing s with
  | nil => exact ⟨[], Logged.refl s, nofun⟩
  | cons l ls ih =>
    refine (pinSet_stopsAtError pin l s).andThen fun u => ?_
    exact StopsAtError.andThen (x := delay resetDelayMs u) ⟨[.wait resetDelayMs], ⟨rfl, rfl, rfl, rfl⟩, by simp [Event.error]⟩ ih

theorem bodyOf_stopsAtError (i : Instr) (s : State) : StopsAtError s (bodyOf i s) := by
  by_cases hreset : ∃ pin, i = .reset pin
  · obtain ⟨pin, rfl⟩ := hreset
    exact (pulseEdges_stopsAtError pin pulseLevels s).movePhase (fun _ => .resetNotInit) fun _ => .unreset
  cases hi : writesTransport i with
  | true =>
    obtain ⟨script, u, onOk, onErr, hu, hbody⟩ := hasScript hi s
    rw [show bodyOf i s = _ from hbody s.transport s.phase s.fb fun _ => rfl]
    have hlogged : Logged s (u.withOthers s.transport s.phase s.fb) [] := ⟨hu.log, hu.pos, hu.fault, hu.refused⟩
    exact ((script.stopsAtError _).movePhase onOk onErr).after hlogged nofun
  | false =>
    obtain ⟨u, hu, hlogged⟩ | ⟨f, hf⟩ := bodyOf_quiet hi (not_exists.1 hreset) s
    · rw [hu]
      exact ⟨[], hlogged, nofun⟩
    · rw [hf]
      trivial

/-- Settles O53: each body stops at its first error, and its outcome is what is recorded. -/
theorem firstErrorEndsTheOperation : Obligations.FirstErrorEndsTheOperation := by
  intro i s t hf hr h
  obtain ⟨op, -, rfl⟩ | ⟨-, hrun⟩ := exec_next h
  · exact ⟨[], by simp, .inl ⟨nofun, .inr (.inr (by simp))⟩⟩
  have hstops := bodyOf_stopsAtError i s
  obtain ⟨u, hu, rfl⟩ | ⟨err, u, hu, rfl⟩ | ⟨r, u, hu, rfl⟩ := conclude_next hrun <;> rw [hu] at hstops
  · obtain ⟨es, hlogged, hes⟩ := hstops
    exact ⟨es, hlogged.log, .inl ⟨hes, .inl ⟨_, rfl⟩⟩⟩
  · obtain ⟨es, e, hlogged, hes, he⟩ := hstops
    exact ⟨_, hlogged.log, .inr ⟨es, e, err, rfl, hes, he, rfl, hlogged.fault.trans hf, hlogged.refused.trans hr⟩⟩
  · obtain ⟨es, hlogged, hes⟩ := hstops
    exact ⟨es, hlogged.log, .inl ⟨hes, .inr (.inl (by simp))⟩⟩

end Sys2Proof.Machine
end

section
/-! PROOF. A write that is not answered `Ok` cuts the run its operation makes when every write is (spec/60_exceptions.md R208), and a
silent agent ends the run (spec/70_reset_and_hazards.md R242). -/

namespace Sys2Proof.Machine

/-! ## Any write of an operation -/

theorem Flow.log_movePhase {x : Flow} {onOk onErr : Phase → Phase} {v : OpValue} {t : State}
    (h : conclude v (x.movePhase onOk onErr) = .next t) : ∃ t', conclude v x = .next t' ∧ t'.log = t.log := by
  cases x with
  | done u | failed err u | raised r u =>
    obtain rfl := Host.Outcome.next.inj h
    exact ⟨_, rfl, rfl⟩
  | stuck f => cases h

/-- An instruction that sends nothing and answers a next state has logged nothing. -/
theorem exec_quiet_log {i : Instr} {s t : State} {v : OpValue} (hi : writesTransport i = false) (hreset : ∀ pin, i ≠ .reset pin)
    (h : conclude v (bodyOf i s) = .next t) : t.log = s.log := by
  obtain ⟨u, hu, hlogged⟩ | ⟨f, hf⟩ := bodyOf_quiet hi hreset s
  · rw [hu] at h
    obtain rfl := Host.Outcome.next.inj h
    exact hlogged.log.trans (List.append_nil _)
  · rw [hf] at h
    cases h

/-- Settles O59: the body is a script, whose events the granted run logs and whose run the first other answer cuts. -/
theorem firstBadAnswerCutsTheRun : Obligations.FirstBadAnswerCutsTheRun := by
  intro i s t es k hreset hf hr ht hlog hk hg
  have hsends : t.log ≠ s.log := fun h => by
    obtain rfl : es = [] := List.self_eq_append_right.1 (h.symm.trans hlog)
    exact absurd hk (Nat.not_lt_zero k)
  obtain ⟨op, -, rfl⟩ | ⟨ha, hrun⟩ := exec_next ht
  · exact absurd rfl hsends
  cases hi : writesTransport i with
  | false => exact absurd (exec_quiet_log hi hreset hrun) hsends
  | true =>
    obtain ⟨script, u, onOk, onErr, hu, hbody⟩ := hasScript hi s
    have hgranted : bodyOf i s.granted = _ := hbody (Agent.alwaysOk _) s.phase s.fb fun _ => rfl
    have hown : bodyOf i s = _ := hbody s.transport s.phase s.fb fun _ => rfl
    rw [hgranted] at hrun
    obtain ⟨t', hrun', hlog'⟩ := Flow.log_movePhase hrun
    have hulog : u.log = s.log := hu.log.trans (List.append_nil _)
    obtain rfl : es = script.events := Script.log_run (Agent.grants_alwaysOk _) hrun' (by rw [hlog', hlog, ← hulog]; rfl)
    rw [exec_admitted (s := s) ha, hown]
    refine ⟨fun e he => ?_, fun hn => ?_⟩
    · obtain ⟨⟨col, row⟩, hcursor⟩ : ∃ c, script.cursors[k]? = some c :=
        ⟨_, List.getElem?_eq_getElem (by rwa [Script.length_cursors])⟩
      rw [Script.run_err (s := u.withOthers s.transport s.phase s.fb) hcursor hg he]
      exact ⟨_, rfl, congrArg (· ++ _) hulog, rfl, congrArg s.transport.skip (length_cutAt hk e), hu.fault.trans hf,
        hu.refused.trans hr, congrArg (· + 1) hu.pos⟩
    · rw [Script.run_never (s := u.withOthers s.transport s.phase s.fb) hk hg hn]
      rfl

/-! ## The first write of an operation -/

/-- A script that begins with a write stops where it is never answered. -/
theorem Script.run_write_never (col row : Byte) (w : Write) (next : Script) {s : State} (h : s.transport.answer 0 = .never) :
    (Script.write col row w next).run s = .stuck .agentSilent :=
  Script.run_never (k := 0) (Nat.succ_pos next.events.length) nofun h

theorem cmdWrite_never (c : List Byte) {s : State} (h : s.transport.answer 0 = .never) :
    cmdWrite c s = .stuck .agentSilent := transportWrite_never _ s h

theorem sendCommands_never (c : List Byte) (cs : List (List Byte)) {s : State} (h : s.transport.answer 0 = .never) :
    sendCommands (c :: cs) s = .stuck .agentSilent := by
  rw [sendCommands, cmdWrite_never c h, Flow.andThen_stuck]

theorem exec_session_never {i : Instr} {s : State} (h : s.transport.answer 0 = .never) (hm : s.mode ≠ .none)
    (hi : (i.isCommand = true ∧ i.wf = true) ∨ (∃ on, i = .displayOn on) ∨ (∃ v, i = .setContrast v) ∨
      ∃ rot, i = .setRotation rot) : exec i s = .fault .agentSilent := by
  obtain ⟨hc, hw⟩ | ⟨on, rfl⟩ | ⟨v, rfl⟩ | ⟨rot, rfl⟩ := hi
  · rw [exec_command_session hw hc hm, cmdWrite_never _ h, conclude_stuck]
  · rw [exec_displayOn hm, cmdWrite_never _ h, conclude_stuck]
  · rw [exec_setContrast hm, cmdWrite_never _ h, conclude_stuck]
  · rw [exec_setRotation hm, sendCommands_never _ _ (s := s.setRot rot) h, conclude_stuck]

theorem initBody_never {s : State} (h : s.transport.answer 0 = .never) : initBody s = .stuck .agentSilent := by
  rw [initBody, initSequence_eq, initCommands, sendCommands_never _ _ h]
  rfl

theorem flushBody_never {s : State} (h : s.transport.answer 0 = .never) : flushBody .rotated s = .stuck .agentSilent := by
  obtain ⟨hw, hh⟩ := flushDimensions_pos s
  rw [flushBody_eq (s := s) (Prod.mk.eta (p := flushDimensions .rotated s)).symm hw hh, flushScript.eq_def,
    addressScript_sent (by decide)]
  exact Script.run_write_never _ _ _ _ h

theorem exec_setDrawArea_never {s : State} {sc sr ec er : Byte} (h : s.transport.answer 0 = .never) (hm : s.mode = .raw)
    (hc : sc.toNat < ec.toNat) (hr : sr.toNat < er.toNat) (hp : sr.toNat / 8 ≤ 7) :
    exec (.setDrawArea sc sr ec er) s = .fault .agentSilent := by
  rw [exec_setDrawArea_legal hm hc hr, sendDrawAddress_eq (s := s.setDrawArea sc sr ec er) hp, addressCommands,
    sendCommands_never _ _ (s := s.setDrawArea sc sr ec er) h, conclude_stuck]

theorem exec_draw_never {s : State} {bytes : List Byte} (h : s.transport.answer 0 = .never) (hm : s.mode = .raw)
    (hne : bytes ≠ []) (hv : s.winValid = true) (hcol : s.curCol.toNat < s.winEndCol.toNat) :
    exec (.draw bytes) s = .fault .agentSilent := by
  obtain ⟨b, more, rfl⟩ := List.exists_cons_of_ne_nil hne
  obtain ⟨next, hscript⟩ := drawScript_first b more b more (s := s) (Nat.sub_pos_of_lt hcol)
  rw [exec_draw hm hv, hscript, Script.run_write_never _ _ _ _ h, conclude_stuck]

/-- A pin write that is never answered stops a list of edges. -/
theorem pulseEdges_never {ls : List Level} {k : Nat} {s : State} (hk : k < ls.length) (h : s.pin.grants k)
    (hn : s.pin.answer k = .never) : pulseEdges .wired ls s = .stuck .agentSilent := by
  induction ls generalizing k s with
  | nil => exact absurd hk (Nat.not_lt_zero k)
  | cons l ls ih =>
    cases k with
    | zero => simp [pulseEdges, pinSet, hn]
    | succ k =>
      have hrest : (s.pin.skip 1).grants k := Agent.grants_skip (by rwa [Nat.add_comm])
      have hnext : (s.pin.skip 1).answer k = .never := by rwa [Agent.answer_skip, Nat.add_comm]
      rw [pulseEdges_cons_ok (h 0 (Nat.succ_pos _)), ih (Nat.lt_of_succ_lt_succ hk) hrest hnext]

/-- Settles O11: each body begins with a write, and a write that is never answered stops it. -/
theorem silentTransportStopsTheOperation : Obligations.SilentTransportStopsTheOperation := by
  refine ⟨fun i s h hi => ?_, fun s k hm hk hg hn => ?_⟩
  · obtain ⟨hm, hi⟩ | ⟨hm, rfl | rfl⟩ | ⟨hm, rfl | ⟨sc, sr, ec, er, rfl, hc, hr, hp⟩ | ⟨bytes, rfl, hne, hv, hcol⟩⟩ := hi
    · exact exec_session_never h hm hi
    · rw [exec_operation (op := .init) rfl (by rw [hm]; rfl), bodyOf, initBody_never h, conclude_stuck]
    · rw [exec_flush hm, flushBody_never h, conclude_stuck]
    · rw [exec_operation (op := .initRaw) rfl (by rw [hm]; rfl), bodyOf, initBody_never h, conclude_stuck]
    · exact exec_setDrawArea_never h hm hc hr hp
    · exact exec_draw_never h hm hne hv hcol
  · rw [exec_reset hm, pulseEdges_never hk hg hn]
    rfl

end Sys2Proof.Machine
end

section
/-! PROOF. What the machine does not look at: no step depends on PHASE (spec/10_state.md R29), and no instruction but FLUSH lets a
framebuffer byte out (spec/20_memory.md R65). Both change along with a body and steer nothing in it. -/

namespace Sys2Proof.Machine

/-! ## Changing PHASE and the framebuffer -/

/-- s with PHASE and the framebuffer changed: `setPhase p` with g constant and h the identity, `setFb m` the other way round. -/
def State.mapUnseen (g : Phase → Phase) (h : Memory → Memory) (s : State) : State := { s with phase := g s.phase, fb := h s.fb }

/-- The flow with another state where it left one. -/
def Flow.map (f : State → State) : Flow → Flow
  | .done s => .done (f s)
  | .failed e s => .failed e (f s)
  | .raised r s => .raised r (f s)
  | .stuck x => .stuck x

/-- The outcome with another next state, if it has one. -/
def mapNext (f : State → State) : StepOutcome → StepOutcome
  | .next s => .next (f s)
  | .fault x => .fault x
  | .refused r => .refused r

theorem Flow.andThen_map {f : State → State} {k k' : State → Flow} (h : ∀ u, k' (f u) = (k u).map f) (x : Flow) :
    (x.map f).andThen k' = (x.andThen k).map f := by
  cases x with
  | done u => exact h u
  | failed | raised | stuck => rfl

section
variable (g : Phase → Phase) (h : Memory → Memory)

theorem conclude_mapUnseen (v : OpValue) (x : Flow) :
    conclude v (x.map (State.mapUnseen g h)) = mapNext (State.mapUnseen g h) (conclude v x) := by
  cases x <;> rfl

theorem transportWrite_mapUnseen (ev : Reply TransportErr → Event) (s : State) :
    transportWrite ev (s.mapUnseen g h) = (transportWrite ev s).map (State.mapUnseen g h) := by
  have hanswer : (s.mapUnseen g h).transport.answer 0 = s.transport.answer 0 := rfl
  unfold transportWrite
  rw [hanswer]
  split <;> rfl

theorem Script.run_mapUnseen (script : Script) (s : State) :
    script.run (s.mapUnseen g h) = (script.run s).map (State.mapUnseen g h) := by
  induction script generalizing s with
  | ended | faulted | stopped => rfl
  | write col row w next ih =>
    rw [Script.run, Script.run, ← Flow.andThen_map ih]
    exact congrArg (Flow.andThen · _) (transportWrite_mapUnseen g h w.event (s.setCursor col row))

theorem pinSet_mapUnseen (pin : PinSel) (l : Level) (s : State) :
    pinSet pin l (s.mapUnseen g h) = (pinSet pin l s).map (State.mapUnseen g h) := by
  cases pin with
  | noOp => rfl
  | wired =>
    have hanswer : (s.mapUnseen g h).pin.answer 0 = s.pin.answer 0 := rfl
    simp only [pinSet]
    rw [hanswer]
    split <;> rfl

theorem pulseEdges_mapUnseen (pin : PinSel) (ls : List Level) (s : State) :
    pulseEdges pin ls (s.mapUnseen g h) = (pulseEdges pin ls s).map (State.mapUnseen g h) := by
  induction ls generalizing s with
  | nil => rfl
  | cons l ls ih =>
    rw [pulseEdges, pulseEdges, pinSet_mapUnseen]
    exact Flow.andThen_map (fun u => Flow.andThen_map ih (delay resetDelayMs u)) _

/-- Where the mode does not admit an instruction, its answer looks at the mode alone. -/
theorem exec_mapUnseen_of_denied {i : Instr} {s : State} (hm : admitted i s.mode = false) :
    exec i (s.mapUnseen g h) = mapNext (State.mapUnseen g h) (exec i s) := by
  unfold admitted at hm
  split at hm
  next op hop =>
    rw [exec_denied hop hm, exec_denied (s := s.mapUnseen g h) hop hm]
    rfl
  next hop =>
    have hnone : s.mode = .none := by simpa using hm
    rw [exec_of_command hop, exec_of_command hop, runCommand_noSession hnone,
      runCommand_noSession (s := s.mapUnseen g h) hnone]
    rfl

end

theorem valueOf_mapUnseen (i : Instr) (g : Phase → Phase) (h : Memory → Memory) (s : State) :
    valueOf i (s.mapUnseen g h) = valueOf i s := by
  cases i <;> rfl

/-- If a change before a body is a change after it, it is one of the next state. -/
theorem exec_mapUnseen {i : Instr} {s : State} {g g' : Phase → Phase} {h h' : Memory → Memory}
    (hm : admitted i s.mode = true) (hbody : bodyOf i (s.mapUnseen g h) = (bodyOf i s).map (State.mapUnseen g' h')) :
    exec i (s.mapUnseen g h) = mapNext (State.mapUnseen g' h') (exec i s) := by
  rw [exec_admitted hm, exec_admitted (s := s.mapUnseen g h) hm, hbody, conclude_mapUnseen, valueOf_mapUnseen]

/-! ## PHASE -/

/-- The table of R159 gives each outcome its own PHASE, from whichever PHASE there was. -/
theorem Flow.movePhase_setPhase (x : Flow) (p : Phase) (onOk onErr : Phase → Phase) :
    ∃ q, (x.map (State.setPhase · p)).movePhase onOk onErr = (x.movePhase onOk onErr).map (State.setPhase · q) := by
  cases x with
  | done u => exact ⟨onOk p, rfl⟩
  | failed e u => exact ⟨onErr p, rfl⟩
  | raised r u => exact ⟨p, rfl⟩
  | stuck f => exact ⟨p, rfl⟩

theorem setPixelBody_setPhase (x y : Nat) (on : Bool) (s : State) (p : Phase) :
    setPixelBody x y on (s.setPhase p) = (setPixelBody x y on s).map (State.setPhase · p) := by
  simp only [setPixelBody, State.setPhase_size, State.setPhase_rot, State.setPhase_fb]
  split
  · rfl
  · split <;> rfl

theorem bodyOf_setPhase (i : Instr) (s : State) (p : Phase) :
    ∃ q, bodyOf i (s.setPhase p) = (bodyOf i s).map (State.setPhase · q) := by
  cases hi : writesTransport i with
  | true =>
    obtain ⟨script, u, onOk, onErr, -, hbody⟩ := hasScript hi s
    have hchanged : bodyOf i (s.setPhase p) = _ := hbody s.transport p s.fb fun _ => rfl
    have hown : bodyOf i s = _ := hbody s.transport s.phase s.fb fun _ => rfl
    have hrun := script.run_mapUnseen (fun _ => p) id (u.withOthers s.transport s.phase s.fb)
    obtain ⟨q, hq⟩ := (script.run (u.withOthers s.transport s.phase s.fb)).movePhase_setPhase p onOk onErr
    exact ⟨q, by rw [hchanged, hown, ← hq]; exact congrArg (Flow.movePhase · onOk onErr) hrun⟩
  | false =>
    cases i with
    | reset pin =>
      obtain ⟨q, hq⟩ := (pulseEdges pin pulseLevels s).movePhase_setPhase p (fun _ => .resetNotInit) fun _ => .unreset
      exact ⟨q, (congrArg (Flow.movePhase · _ _) (pulseEdges_mapUnseen (fun _ => p) id pin pulseLevels s)).trans hq⟩
    | setPixel => exact ⟨p, setPixelBody_setPhase _ _ _ s p⟩
    | pixelEvent x y color =>
      refine ⟨p, ?_⟩
      simp only [bodyOf, pixelEventBody]
      split
      · rfl
      · exact setPixelBody_setPhase _ _ _ s p
    | connect => exact ⟨.unreset, rfl⟩
    | withSize | withRotation | clear | getDimensions | release | enterGraphics | unwrap => exact ⟨p, rfl⟩
    | clockDiv | contrast | precharge | scrollOn | scrollOff | cmdDisplayOn | cmdDisplayOff | segRemap1 | segRemap0
    | comReverse | comNormal | pageStart | colLow | colHigh | init | initRaw | flush | setDrawArea | draw | setRotation
    | displayOn | setContrast => cases hi

theorem exec_setPhase (i : Instr) (s : State) (p : Phase) :
    ∃ q, exec i (s.setPhase p) = mapNext (State.setPhase · q) (exec i s) := by
  cases hm : admitted i s.mode with
  | true =>
    obtain ⟨q, hq⟩ := bodyOf_setPhase i s p
    exact ⟨q, exec_mapUnseen (g := fun _ => p) (g' := fun _ => q) (h := id) (h' := id) hm hq⟩
  | false => exact ⟨p, exec_mapUnseen_of_denied (fun _ => p) id hm⟩

theorem runEntry_setPhase (e : Entry) (s : State) (p : Phase) :
    ∃ q, runEntry e (s.setPhase p) = mapNext (State.setPhase · q) (runEntry e s) := by
  cases e with
  | operation i => exact exec_setPhase i s p
  | unassigned | dropSurface => exact ⟨p, rfl⟩
  | pixelSource src =>
    simp only [runEntry, runPixelSource]
    split
    · exact exec_setPhase _ (s.splice _) p
    · exact ⟨p, rfl⟩

theorem step_setPhase (s : State) (p : Phase) :
    ∃ q, step (s.setPhase p) = mapNext (State.setPhase · q) (step s) := by
  cases hf : s.fault with
  | some r =>
    rw [step_of_fault hf, step_of_fault (s := s.setPhase p) hf]
    exact ⟨p, rfl⟩
  | none =>
    cases hr : s.refused with
    | some r =>
      rw [step_of_refused hf hr, step_of_refused (s := s.setPhase p) hf hr]
      exact ⟨p, rfl⟩
    | none =>
      cases he : s.program[s.pos]? with
      | none =>
        rw [step_runEnded hf hr he, step_runEnded (s := s.setPhase p) hf hr he]
        exact ⟨p, rfl⟩
      | some e =>
        rw [step_entry hf hr he, step_entry (s := s.setPhase p) hf hr he]
        exact runEntry_setPhase e s p

/-- Settles O56: a step with another PHASE is the same step, with another PHASE after it. -/
theorem phaseInfluencesNothing : Obligations.PhaseInfluencesNothing := by
  intro s p
  obtain ⟨q, hq⟩ := step_setPhase s p
  refine ⟨fun t h => ⟨q, ?_⟩, fun f h => ?_, fun r h => ?_⟩ <;> rw [h] at hq <;> exact hq

/-! ## The framebuffer -/

/-- Where the framebuffer is whole, a body that sends nothing writes it or leaves it, whatever it held. -/
theorem bodyOf_quiet_setFb {i : Instr} {s : State} {m : Memory} (hi : writesTransport i = false)
    (hreset : ∀ pin, i ≠ .reset pin) (hm : admitted i .graphics = true) (hs : s.fb.covers s.size.fbBytes)
    (hmem : m.covers s.size.fbBytes) : ∃ u n, bodyOf i s = .done u ∧ bodyOf i (s.setFb m) = .done (u.setFb n) := by
  cases i with
  | withSize | withRotation | getDimensions => exact ⟨s, m, rfl, rfl⟩
  | clear => exact ⟨_, clearedFramebuffer s.size, rfl, rfl⟩
  | release | unwrap => exact ⟨_, [], rfl, rfl⟩
  | setPixel x y value =>
    obtain ⟨_, hown, -⟩ := setPixelBody_covers x.toNat y.toNat (decide (value ≠ 0)) s hs
    obtain ⟨n, hother, -⟩ := setPixelBody_covers x.toNat y.toNat (decide (value ≠ 0)) (s.setFb m) hmem
    exact ⟨_, n, hown, hother⟩
  | pixelEvent x y color =>
    obtain ⟨_, -, hown⟩ := pixelEventBody_done x y color s hs
    obtain ⟨n, -, hother⟩ := pixelEventBody_done x y color (s.setFb m) hmem
    exact ⟨_, n, hown s rfl rfl rfl, hother _ rfl rfl rfl⟩
  | connect | enterGraphics => cases hm
  | reset pin => exact absurd rfl (hreset pin)
  | clockDiv | contrast | precharge | scrollOn | scrollOff | cmdDisplayOn | cmdDisplayOff | segRemap1 | segRemap0
  | comReverse | comNormal | pageStart | colLow | colHigh | init | initRaw | flush | setDrawArea | draw | setRotation
  | displayOn | setContrast => cases hi

theorem Flow.movePhase_setFb (x : Flow) (m : Memory) (onOk onErr : Phase → Phase) :
    (x.map (State.setFb · m)).movePhase onOk onErr = (x.movePhase onOk onErr).map (State.setFb · m) := by
  cases x <;> rfl

theorem bodyOf_setFb {i : Instr} {s : State} {m : Memory} (hflush : i ≠ .flush) (hm : admitted i .graphics = true)
    (hs : s.fb.covers s.size.fbBytes) (hmem : m.covers s.size.fbBytes) :
    ∃ n, bodyOf i (s.setFb m) = (bodyOf i s).map (State.setFb · n) := by
  cases hi : writesTransport i with
  | true =>
    obtain ⟨script, u, onOk, onErr, -, hbody⟩ := hasScript hi s
    have hchanged : bodyOf i (s.setFb m) = _ := hbody s.transport s.phase m fun h => absurd h hflush
    have hown : bodyOf i s = _ := hbody s.transport s.phase s.fb fun _ => rfl
    have hrun := script.run_mapUnseen id (fun _ => m) (u.withOthers s.transport s.phase s.fb)
    exact ⟨m, by rw [hchanged, hown, ← Flow.movePhase_setFb]; exact congrArg (Flow.movePhase · onOk onErr) hrun⟩
  | false =>
    by_cases hreset : ∃ pin, i = .reset pin
    · obtain ⟨pin, rfl⟩ := hreset
      exact ⟨m, (congrArg (Flow.movePhase · _ _) (pulseEdges_mapUnseen id (fun _ => m) pin pulseLevels s)).trans
        (Flow.movePhase_setFb _ m (fun _ => .resetNotInit) fun _ => .unreset)⟩
    · obtain ⟨u, n, hown, hother⟩ := bodyOf_quiet_setFb hi (not_exists.1 hreset) hm hs hmem
      exact ⟨n, by rw [hown, hother]; rfl⟩

/-- Settles O54: a body that is not FLUSH's takes any whole framebuffer along, and a refusal looks at the mode. -/
theorem framebufferIsSeenOnlyThroughFlush : Obligations.FramebufferIsSeenOnlyThroughFlush := by
  intro i s t m hflush hinv hm hmem h
  have hs : s.fb.covers s.size.fbBytes := hinv.fbPresent hm
  obtain ⟨n, hn⟩ : ∃ n, exec i (s.setFb m) = mapNext (State.setFb · n) (exec i s) := by
    cases ha : admitted i s.mode with
    | true =>
      obtain ⟨n, hn⟩ := bodyOf_setFb hflush (by rwa [hm] at ha) hs (hmem.trans (congrArg List.range (SizeCode.fbBytes_eq _).symm))
      exact ⟨n, exec_mapUnseen (g := id) (g' := id) (h := fun _ => m) (h' := fun _ => n) ha hn⟩
    | false => exact ⟨m, exec_mapUnseen_of_denied id (fun _ => m) ha⟩
  rw [h] at hn
  exact ⟨n, hn⟩

end Sys2Proof.Machine
end

section
/-! PROOF. The framebuffer as what its indices read: CLEAR's loop and pixel events in a row (spec/42_graphics_surface.md R150, R154), and
the mode conversions (R160, R161, R162). -/

namespace Sys2Proof.Machine

/-! ## CLEAR's loop -/

/-- Two memories with the same n indices that read the same are the same. -/
theorem Memory.covers.ext {m m' : Memory} {n : Nat} (h : m.covers n) (h' : m'.covers n) (hread : ∀ i, m.read i = m'.read i) :
    m = m' := by
  have hbytes : m.map Prod.snd = m'.map Prod.snd := List.ext_getElem? fun i => by
    rw [Memory.getElem?_bytes m n i h, Memory.getElem?_bytes m' n i h', hread i]
  exact (List.zip_of_prod h hbytes).trans (List.zip_of_prod h' rfl).symm

/-- Writing a byte to each of the first indices in turn. -/
theorem Memory.read_foldl_write (m : Memory) (v : Byte) (k i : Nat) :
    ((List.range k).foldl (fun acc j => acc.write j v) m).read i = if i < k then some v else m.read i := by
  induction k with
  | zero => rfl
  | succ k ih =>
    rw [List.range_succ, List.foldl_append, List.foldl_cons, List.foldl_nil]
    by_cases hi : i = k
    · rw [hi, Memory.read_write_same, if_pos (Nat.lt_succ_self k)]
    · rw [Memory.read_write_other _ _ _ _ hi, ih]
      exact if_congr (by omega) rfl rfl

theorem Memory.covers.foldl_write {m : Memory} {n : Nat} (h : m.covers n) (v : Byte) {k : Nat} (hk : k ≤ n) :
    Memory.covers ((List.range k).foldl (fun acc j => acc.write j v) m) n := by
  induction k with
  | zero => exact h
  | succ k ih =>
    rw [List.range_succ, List.foldl_append, List.foldl_cons, List.foldl_nil]
    exact Memory.covers_write _ n k v (ih (Nat.le_of_succ_le hk)) hk

/-- Settles O38: after the loop every index reads 0x00, as CLEAR's framebuffer does, and the indices are the same. -/
theorem clearIsTheLoopOfWrites : Obligations.ClearIsTheLoopOfWrites := by
  intro m hm
  refine (hm.foldl_write 0x00 (Nat.le_refl 1024)).ext (clearedFramebuffer_covers .size128x64) fun i => ?_
  rw [Memory.read_foldl_write, read_clearedFramebuffer]
  by_cases hi : i < 1024
  · rw [if_pos hi, if_pos hi]
  · rw [if_neg hi, if_neg hi, hm.read_range.2 i (Nat.le_of_not_lt hi)]

/-! ## Mode conversions -/

theorem exec_enterGraphics {s : State} (h : s.mode = .raw) :
    exec .enterGraphics s = .next ((((s.setMode .graphics).setFb (freshFramebuffer s.size s.fresh)).drawFree
      s.size.fbBytes).returned (.ok .unit)) :=
  exec_operation (op := .enterGraphics) rfl (by rw [h]; rfl)

/-- Settles O50: each conversion is its body, and a drop is its entry. -/
theorem modeConversionsComplete : Obligations.ModeConversionsComplete := by
  intro s
  refine ⟨fun h => ?_, fun h => ?_, fun h => ?_, fun hf hr he => ?_⟩
  · exact exec_operation (op := .release) rfl (by rw [h]; rfl)
  · exact ⟨_, _, exec_enterGraphics h, (freshFramebuffer_covers_1024 s.size s.fresh).read_range⟩
  · exact exec_operation (op := .unwrap) rfl (admits_session rfl rfl h)
  · exact step_entry hf hr he

/-! ## What a pixel event paints -/

/-- The bit of a memory at an index. -/
def Memory.bit (m : Memory) (idx bit : Nat) : Option Bool := (m.read idx).map (·.getLsbD bit)

theorem Memory.bit_write_writeBit {m : Memory} {idx bit : Nat} {b : Byte} (hb : m.read idx = some b) (hbit : bit < 8) (on : Bool)
    (i k : Nat) :
    (m.write idx (writeBit b bit on)).bit i k = if (i, k) = (idx, bit) then some on else m.bit i k := by
  unfold Memory.bit
  by_cases hi : i = idx
  · rw [hi, Memory.read_write_same, hb, Option.map_some, Option.map_some, getLsbD_writeBit b bit on k hbit]
    by_cases hk : k = bit <;> simp [hk]
  · rw [Memory.read_write_other _ _ _ _ hi, if_neg fun h => hi (congrArg Prod.fst h)]

/-- A pixel event gives its own pixel its colour and leaves every other pixel's bit (R153). -/
structure Paints (size : SizeCode) (rot : Rotation) (m : Memory) (e : PixelEvent) (m' : Memory) : Prop where
  own : 0 ≤ e.1.toInt → 0 ≤ e.2.1.toInt → ∀ idx bit, pixelMap size rot e.1.toNat e.2.1.toNat = some (idx, bit) →
    m'.bit idx bit = some e.2.2
  other : ∀ x y idx bit, pixelMap size rot x y = some (idx, bit) → ¬(e.1.toNat = x ∧ e.2.1.toNat = y) →
    m'.bit idx bit = m.bit idx bit

theorem pixelMap_injective_of_size {size : SizeCode} {rot : Rotation} {x y x' y' : Nat} {p : Nat × Nat}
    (h : pixelMap size rot x y = some p) (h' : pixelMap size rot x' y' = some p) : x = x' ∧ y = y' := by
  cases size
  exact pixelMap_injective rot h h'

/-- In GRAPHICS a pixel event returns, and paints. -/
theorem exec_event_paints (e : PixelEvent) {s : State} (hm : s.mode = .graphics) (hs : s.fb.covers s.size.fbBytes) :
    ∃ m, exec (eventInstr e) s = .next ((s.setFb m).returned (.ok .unit)) ∧ m.covers s.size.fbBytes ∧
      Paints s.size s.rot s.fb e m := by
  rw [eventInstr, exec_pixelEvent hm]
  by_cases hneg : e.1.toInt < 0 ∨ e.2.1.toInt < 0
  · rw [pixelEventBody_of_negative hneg]
    exact ⟨s.fb, rfl, hs, fun hx hy => by omega, fun _ _ _ _ _ _ => rfl⟩
  obtain ⟨hx, hy⟩ : 0 ≤ e.1.toInt ∧ 0 ≤ e.2.1.toInt := by omega
  rw [pixelEventBody_of_nonneg hx hy]
  cases hin : pixelMap s.size s.rot e.1.toNat e.2.1.toNat with
  | none =>
    rw [setPixelBody_of_outside hin]
    exact ⟨s.fb, rfl, hs, fun _ _ idx bit h => (by rw [hin] at h; cases h), fun _ _ _ _ _ _ => rfl⟩
  | some p =>
    obtain ⟨idx, bit⟩ := p
    obtain ⟨hidx, hbit⟩ := pixelMap_bounds hin
    obtain ⟨b, hb⟩ := Option.isSome_iff_exists.1 ((Memory.read_isSome_of_covers s.fb _ idx hs).2 hidx)
    have hwrite := Memory.bit_write_writeBit hb hbit e.2.2
    rw [setPixelBody_of_inside hin hb]
    refine ⟨_, rfl, Memory.covers_write _ _ _ _ hs hidx, fun _ _ i k h => ?_, fun x y i k h hne => ?_⟩
    · rw [hwrite, if_pos (Option.some.inj (h.symm.trans hin))]
    · rw [hwrite, if_neg fun heq => hne (pixelMap_injective_of_size hin (h.trans (congrArg some heq)))]

/-! ## Pixel events in a row -/

/-- Pixel events that paint one after another (R154). -/
inductive PaintsAll (size : SizeCode) (rot : Rotation) : Memory → List PixelEvent → Memory → Prop where
  | nil (m : Memory) : PaintsAll size rot m [] m
  | cons {m m' m'' : Memory} {e : PixelEvent} {es : List PixelEvent} (he : Paints size rot m e m')
      (hes : PaintsAll size rot m' es m'') : PaintsAll size rot m (e :: es) m''

/-- A pixel that no event is for keeps its bit. -/
theorem PaintsAll.other {size : SizeCode} {rot : Rotation} {m m' : Memory} {es : List PixelEvent}
    (h : PaintsAll size rot m es m') {x y : BitVec 32} {idx bit : Nat}
    (hin : pixelMap size rot x.toNat y.toNat = some (idx, bit)) (hes : ∀ e ∈ es, ¬(e.1 = x ∧ e.2.1 = y)) :
    m'.bit idx bit = m.bit idx bit := by
  induction h with
  | nil m => rfl
  | cons he _ ih =>
    obtain ⟨hne, hrest⟩ := List.forall_mem_cons.1 hes
    exact (ih hrest).trans (he.other _ _ _ _ hin fun heq => hne ⟨BitVec.eq_of_toNat_eq heq.1, BitVec.eq_of_toNat_eq heq.2⟩)

/-- The last event for a pixel decides its bit. -/
theorem PaintsAll.last {size : SizeCode} {rot : Rotation} {m m' : Memory} {es before after : List PixelEvent} {e : PixelEvent}
    (h : PaintsAll size rot m es m') (hes : es = before ++ e :: after) (hx : 0 ≤ e.1.toInt) (hy : 0 ≤ e.2.1.toInt) {idx bit : Nat}
    (hin : pixelMap size rot e.1.toNat e.2.1.toNat = some (idx, bit)) (hafter : ∀ f ∈ after, ¬(f.1 = e.1 ∧ f.2.1 = e.2.1)) :
    m'.bit idx bit = some e.2.2 := by
  induction h generalizing before with
  | nil m => simp at hes
  | cons he hrest ih =>
    cases before with
    | nil =>
      obtain ⟨rfl, rfl⟩ := List.cons.inj hes
      exact (hrest.other hin hafter).trans (he.own hx hy _ _ hin)
    | cons f before => exact ih (List.cons.inj hes).2

/-- In GRAPHICS pixel events run one after another, and paint one after another. -/
theorem execAll_events_paint (es : List PixelEvent) {s : State} (hm : s.mode = .graphics) (hs : s.fb.covers s.size.fbBytes) :
    ∃ m r, execAll (es.map eventInstr) s = .next { s with fb := m, pos := s.pos + es.length, result := r } ∧
      PaintsAll s.size s.rot s.fb es m := by
  induction es generalizing s with
  | nil => exact ⟨s.fb, s.result, rfl, .nil _⟩
  | cons e es ih =>
    obtain ⟨m', he, hm', hpaints⟩ := exec_event_paints e hm hs
    obtain ⟨m, r, hes, hall⟩ := ih (s := (s.setFb m').returned (.ok .unit)) hm hm'
    refine ⟨m, r, ?_, .cons hpaints hall⟩
    have hpos : s.pos + (es.length + 1) = s.pos + 1 + es.length := Nat.add_right_comm s.pos es.length 1
    rw [List.map_cons, execAll, he, List.length_cons, hpos]
    exact hes

/-- Settles O47: the events paint in order, and the last one for a pixel is painted over by none. -/
theorem lastPixelEventWins : Obligations.LastPixelEventWins := by
  intro s es hm hinv
  obtain ⟨m, r, hrun, hpaints⟩ := execAll_events_paint es hm (hinv.fbPresent hm)
  exact ⟨_, hrun, rfl, rfl, fun before after x y c idx bit hes hx hy hin hafter => hpaints.last hes hx hy hin hafter⟩

end Sys2Proof.Machine
end

section
/-! PROOF. A producer of pixel events in the program: each step executes one event and leaves the rest of the producer after it
(spec/42_graphics_surface.md R154, spec/30_encoding.md R80). -/

namespace Sys2Proof.Machine

/-! ## One step on a producer -/

theorem runSteps_of_step {s t : State} (h : step s = .next t) (n : Nat) : runSteps (n + 1) s = runSteps n t := by
  rw [runSteps, h]

theorem execAll_of_exec {i : Instr} {s t : State} (h : exec i s = .next t) (is : List Instr) :
    execAll (i :: is) s = execAll is t := by
  rw [execAll, h]

/-- What follows the entries put in the place of the one at the position is what followed it. -/
theorem drop_splice {s : State} {e : Entry} (h : s.program[s.pos]? = some e) (es : List Entry) :
    (s.splice es).program.drop (s.pos + es.length) = s.program.drop (s.pos + 1) := by
  have hpos : s.pos ≤ s.program.length := Nat.le_of_lt (List.getElem?_eq_some_iff.1 h).1
  exact List.drop_left' (by rw [List.length_append, List.length_take_of_le hpos])

theorem step_producer {s : State} {src : PixelSource} (hf : s.fault = none) (hr : s.refused = none)
    (he : s.program[s.pos]? = some (.pixelSource src)) {e : PixelEvent} {rest : PixelSource}
    (hnext : nextEvent src = some (e, rest)) :
    step s = exec (eventInstr e) (s.splice [pixelEventEntry e, .pixelSource rest]) := by
  simp only [step_entry hf hr he, runEntry, runPixelSource, hnext]

theorem step_producer_ended {s : State} (hf : s.fault = none) (hr : s.refused = none)
    (he : s.program[s.pos]? = some (.pixelSource ⟨[], []⟩)) : step s = .next (s.splice []) :=
  step_entry hf hr he

/-- A machine in GRAPHICS, its framebuffer whole, nothing recorded in FAULT or REFUSED, and the producer its next entry. -/
structure AtProducer (s : State) (src : PixelSource) : Prop where
  fault   : s.fault = none
  refused : s.refused = none
  mode    : s.mode = .graphics
  covers  : s.fb.covers s.size.fbBytes
  entry   : s.program[s.pos]? = some (.pixelSource src)

/-- After es.length steps from s: the position has moved by as many, nothing was logged, the program after the producer is what it
was, and the events executed one after another, whatever the program, do the same. -/
structure Processed (es : List PixelEvent) (s t : State) : Prop where
  pos   : t.pos = s.pos + es.length
  log   : t.log = s.log
  after : t.program.drop (t.pos + 1) = s.program.drop (s.pos + 1)
  run   : ∀ p is, execAll (es.map eventInstr ++ is) { s with program := p } = execAll is { t with program := p }

theorem Processed.nil (s : State) : Processed [] s s := ⟨rfl, rfl, rfl, fun _ _ => rfl⟩

/-- A step on a producer that yields an event executes that event and comes to the rest of the producer. -/
theorem AtProducer.step {s : State} {src rest : PixelSource} {e : PixelEvent} (h : AtProducer s src)
    (hnext : nextEvent src = some (e, rest)) : ∃ t, step s = .next t ∧ AtProducer t rest ∧ Processed [e] s t := by
  obtain ⟨hf, hr, hm, hc, he⟩ := h
  obtain ⟨m, hcovers, hexec⟩ := execPixelEvent_next e hm hc
  refine ⟨_, (step_producer hf hr he hnext).trans (hexec _), ⟨hf, hr, hm, hcovers, ?_⟩, rfl, rfl, ?_, fun p => ?_⟩
  · exact splice_getElem? he [pixelEventEntry e, .pixelSource rest] 1 (Nat.lt_succ_self 1)
  · exact drop_splice he [pixelEventEntry e, .pixelSource rest]
  · exact execAll_of_exec (hexec p)

theorem Processed.cons {e : PixelEvent} {es : List PixelEvent} {s t u : State} (h : Processed [e] s t) (h' : Processed es t u) :
    Processed (e :: es) s u := by
  refine ⟨?_, h'.log.trans h.log, h'.after.trans h.after, fun p is => (h.run p (es.map eventInstr ++ is)).trans (h'.run p is)⟩
  rw [h'.pos, h.pos]
  exact Nat.add_right_comm s.pos 1 es.length

theorem Processed.execAll {es : List PixelEvent} {s t : State} (h : Processed es s t) :
    execAll (es.map eventInstr) s = .next { t with program := s.program } := by
  have hrun := h.run s.program []
  rwa [List.append_nil] at hrun

/-! ## The events a producer yields -/

/-- A producer yields the events one after another, and the last producer is what is left of it. -/
inductive Yields : PixelSource → List PixelEvent → PixelSource → Prop where
  | nil (src : PixelSource) : Yields src [] src
  | cons {src src' rest : PixelSource} {e : PixelEvent} {es : List PixelEvent} (he : nextEvent src = some (e, src'))
      (hes : Yields src' es rest) : Yields src (e :: es) rest

/-- A producer yields its queue. -/
theorem yields_queue (queue cycle : List PixelEvent) : Yields ⟨queue, cycle⟩ queue ⟨[], cycle⟩ := by
  induction queue with
  | nil => exact .nil _
  | cons e es ih => exact .cons (nextEvent_queue e es cycle) ih

/-- A producer with a cycle yields as many events as it is asked for, and keeps its cycle. -/
theorem yields_firstEvents (n : Nat) {src : PixelSource} (h : src.cycle ≠ []) :
    ∃ rest, Yields src (firstEvents n src) rest ∧ (firstEvents n src).length = n ∧ rest.cycle = src.cycle := by
  induction n generalizing src with
  | zero => exact ⟨src, .nil src, rfl, rfl⟩
  | succ n ih =>
    obtain ⟨e, src', hnext, hcycle⟩ := nextEvent_of_cycle h
    obtain ⟨rest, hyields, hlen, hrest⟩ := ih (by rwa [hcycle])
    have hfirst : firstEvents (n + 1) src = e :: firstEvents n src' := by rw [firstEvents, hnext]
    rw [hfirst]
    exact ⟨rest, .cons hnext hyields, congrArg (· + 1) hlen, hrest.trans hcycle⟩

/-- The steps on a producer execute the events it yields, and come to what is left of it. -/
theorem AtProducer.runs {src rest : PixelSource} {es : List PixelEvent} (hy : Yields src es rest) {s : State}
    (h : AtProducer s src) :
    ∃ t, (∀ k, runSteps (es.length + k) s = runSteps k t) ∧ AtProducer t rest ∧ Processed es s t := by
  induction hy generalizing s with
  | nil src => exact ⟨s, fun k => by rw [List.length_nil, Nat.zero_add], h, .nil s⟩
  | cons he _ ih =>
    obtain ⟨t, hstep, ht, hone⟩ := h.step he
    obtain ⟨u, hruns, hu, hall⟩ := ih ht
    refine ⟨u, fun k => ?_, hu, hone.cons hall⟩
    rw [List.length_cons, Nat.add_right_comm, runSteps_of_step hstep, hruns]

/-- A finite sequence runs to its end, and one more step removes its producer. -/
theorem AtProducer.runs_finite {s : State} {queue : List PixelEvent} (h : AtProducer s ⟨queue, []⟩) :
    ∃ t u, runSteps (queue.length + 1) s = .next t ∧ execAll (queue.map eventInstr) s = .next u ∧
      t = { u with program := t.program } ∧ t.pos = s.pos + queue.length ∧ t.log = s.log ∧
      t.program.drop t.pos = s.program.drop (s.pos + 1) := by
  obtain ⟨t, hruns, ht, hall⟩ := h.runs (yields_queue queue [])
  refine ⟨t.splice [], { t with program := s.program }, ?_, hall.execAll, rfl, hall.pos, hall.log, ?_⟩
  · rw [hruns, runSteps_of_step (step_producer_ended ht.fault ht.refused ht.entry), runSteps]
  · exact (drop_splice ht.entry []).trans hall.after

/-- An infinite sequence is the next entry again after any number of steps, so the state is not final. -/
theorem AtProducer.runs_infinite {s : State} {src : PixelSource} (h : AtProducer s src) (hcycle : src.cycle ≠ []) (n : Nat) :
    ∃ t u rest, runSteps n s = .next t ∧ execAll ((firstEvents n src).map eventInstr) s = .next u ∧
      t = { u with program := t.program } ∧ (firstEvents n src).length = n ∧ t.pos = s.pos + n ∧ t.log = s.log ∧
      t.program[t.pos]? = some (.pixelSource rest) ∧ rest.cycle = src.cycle ∧ t.final = false := by
  obtain ⟨rest, hyields, hlen, hrest⟩ := yields_firstEvents n hcycle
  obtain ⟨t, hruns, ht, hall⟩ := h.runs hyields
  have hpos := hall.pos
  rw [hlen] at hruns hpos
  have hlt : t.pos < t.program.length := (List.getElem?_eq_some_iff.1 ht.entry).1
  exact ⟨t, { t with program := s.program }, rest, hruns 0, hall.execAll, rfl, hlen, hpos, hall.log, ht.entry, hrest,
    by simp [State.final, hlt]⟩

/-- Settles O60: a producer's steps execute the events it yields, by induction on those events. -/
theorem pixelSequencesRunLazily : Obligations.PixelSequencesRunLazily := by
  intro s src hf hr he
  have hat : s.mode = .graphics → s.Inv → AtProducer s src := fun hm hinv => ⟨hf, hr, hm, hinv.fbPresent hm, he⟩
  refine ⟨fun hqueue hcycle => ?_, fun e rest hsrc => ?_, fun hm hinv hcycle => ?_, fun hm hinv => (hat hm hinv).runs_infinite⟩
  · obtain ⟨queue, cycle⟩ := src
    obtain rfl : queue = [] := hqueue
    obtain rfl : cycle = [] := hcycle
    rw [step_producer_ended hf hr he, State.splice, List.append_nil]
  · refine step_producer hf hr he ?_
    obtain rfl | ⟨rfl, hcycle⟩ := hsrc
    · exact nextEvent_queue e rest.queue rest.cycle
    · rw [nextEvent_cycle, ← hcycle]
  · obtain ⟨queue, cycle⟩ := src
    obtain rfl : cycle = [] := hcycle
    exact (hat hm hinv).runs_finite

end Sys2Proof.Machine
end
